-- ==== Sys2Proof/Word.lean ====
section
/-! DEFINITION. The two word types of the machine (`00_scope.md` R7, R8): a byte is 8 bits, a word (an address)
is 16 bits; arithmetic on them reduces modulo 256 and modulo 65536. -/

namespace Sys2Proof

abbrev Byte := BitVec 8

abbrev Word := BitVec 16

end Sys2Proof
end

