-- ==== Sys2Proof/Config.lean ====
section
/-! DEFINITION. The parameters of the machine that the spec fixes (`00_scope.md` R6). The parameters the spec
leaves open with a default (`92_eei_decisions.md`) are in `Machine/Params.lean`. -/

namespace Sys2Proof.Config

/-- First address of the I/O range, 0x2000: addresses below decode to RAM (R6 `RAM_RANGE_END`, `IO_BASE`). -/
abbrev ioBase : Nat := 0x2000

/-- First address of the expansion range (R6 `IO_END`, `EXP_BASE`). -/
abbrev expBase : Nat := 0x4020

/-- First address of the lower PRG bank (R6 `EXP_END`, `PRG_LO_BASE`). -/
abbrev prgLoBase : Nat := 0x8000

/-- First address of the upper PRG bank (R6 `PRG_HI_BASE`). -/
abbrev prgHiBase : Nat := 0xC000

/-- Size of each of the two PRG banks (R6 `PRG_BANK_SIZE`). -/
abbrev prgBankSize : Nat := 0x4000

/-- The fixed stack page (R6 `STACK_BASE`). -/
abbrev stackBase : Word := 0x0100#16

/-- The NMI vector's address (R6 `VEC_NMI`, `20_memory.md` R125). -/
abbrev vecNmi : Word := 0xFFFA#16

/-- The reset vector's address (R6 `VEC_RESET`, R125). -/
abbrev vecReset : Word := 0xFFFC#16

/-- Size of each pattern table and of the name tables (R6 `PT_SIZE`, `NT_SIZE`). -/
abbrev ptSize : Nat := 0x1000

/-- Size of the name-table memory (R6 `NT_SIZE`). -/
abbrev ntSize : Nat := 0x1000

/-- Size of the palette (R6 `PAL_SIZE`). -/
abbrev palSize : Nat := 0x100

/-- Size of the sprite buffer (R6 `OAM_SIZE`). -/
abbrev oamSize : Nat := 0x100

/-- Length of the header a ROM image begins with (`70_reset_and_hazards.md` R343). -/
abbrev romHeaderSize : Nat := 16

/-- Shortest ROM image that can be loaded (R343). -/
abbrev romImageSize : Nat := 0x6010

end Sys2Proof.Config
end

