-- ==== Sys2Proof/Syntax.lean ====
section
/-! DEFINITION. The instruction set as syntax: one constructor for each of the 151 rows of
`spec/opcode_table.json` (`30_encoding.md` R134). A one-byte operand `d`/`v` and a word operand `w` are
the operand bytes of R132 as they stand in the code; nothing is decoded further here. -/

namespace Sys2Proof

/-- An instruction with its operand bytes (R130 to R132). -/
inductive Instr where
  -- Loads and stores (`41_load_store_transfer.md`)
  | ldaImm (v : Byte) -- 0xA9 LDA #v, R180
  | ldaZp (d : Byte) -- 0xA5 LDA d, R180
  | ldaZpx (d : Byte) -- 0xB5 LDA d,X, R180
  | ldaAbs (w : Word) -- 0xAD LDA w, R180
  | ldaAbx (w : Word) -- 0xBD LDA w,X, R180
  | ldaAby (w : Word) -- 0xB9 LDA w,Y, R180
  | ldaIzx (d : Byte) -- 0xA1 LDA (d,X), R180
  | ldaIzy (d : Byte) -- 0xB1 LDA (d),Y, R180
  | ldxImm (v : Byte) -- 0xA2 LDX #v, R181
  | ldxZp (d : Byte) -- 0xA6 LDX d, R181
  | ldxZpy (d : Byte) -- 0xB6 LDX d,Y, R181
  | ldxAbs (w : Word) -- 0xAE LDX w, R181
  | ldxAby (w : Word) -- 0xBE LDX w,Y, R181
  | ldyImm (v : Byte) -- 0xA0 LDY #v, R182
  | ldyZp (d : Byte) -- 0xA4 LDY d, R182
  | ldyZpx (d : Byte) -- 0xB4 LDY d,X, R182
  | ldyAbs (w : Word) -- 0xAC LDY w, R182
  | ldyAbx (w : Word) -- 0xBC LDY w,X, R182
  | staZp (d : Byte) -- 0x85 STA d, R183
  | staZpx (d : Byte) -- 0x95 STA d,X, R183
  | staAbs (w : Word) -- 0x8D STA w, R183
  | staAbx (w : Word) -- 0x9D STA w,X, R183
  | staAby (w : Word) -- 0x99 STA w,Y, R183
  | staIzx (d : Byte) -- 0x81 STA (d,X), R183
  | staIzy (d : Byte) -- 0x91 STA (d),Y, R183
  | stxZp (d : Byte) -- 0x86 STX d, R184
  | stxZpy (d : Byte) -- 0x96 STX d,Y, R184
  | stxAbs (w : Word) -- 0x8E STX w, R184
  | styZp (d : Byte) -- 0x84 STY d, R185
  | styZpx (d : Byte) -- 0x94 STY d,X, R185
  | styAbs (w : Word) -- 0x8C STY w, R185
  -- Register transfers (`41_load_store_transfer.md`)
  | tax -- 0xAA TAX, R186
  | tay -- 0xA8 TAY, R187
  | txa -- 0x8A TXA, R188
  | tya -- 0x98 TYA, R189
  | tsx -- 0xBA TSX, R190
  | txs -- 0x9A TXS, R191
  -- Arithmetic, logic, bit test, compare (`42_arithmetic_logic.md`)
  | adcImm (v : Byte) -- 0x69 ADC #v, R200
  | adcZp (d : Byte) -- 0x65 ADC d, R200
  | adcZpx (d : Byte) -- 0x75 ADC d,X, R200
  | adcAbs (w : Word) -- 0x6D ADC w, R200
  | adcAbx (w : Word) -- 0x7D ADC w,X, R200
  | adcAby (w : Word) -- 0x79 ADC w,Y, R200
  | adcIzx (d : Byte) -- 0x61 ADC (d,X), R200
  | adcIzy (d : Byte) -- 0x71 ADC (d),Y, R200
  | sbcImm (v : Byte) -- 0xE9 SBC #v, R201
  | sbcZp (d : Byte) -- 0xE5 SBC d, R201
  | sbcZpx (d : Byte) -- 0xF5 SBC d,X, R201
  | sbcAbs (w : Word) -- 0xED SBC w, R201
  | sbcAbx (w : Word) -- 0xFD SBC w,X, R201
  | sbcAby (w : Word) -- 0xF9 SBC w,Y, R201
  | sbcIzx (d : Byte) -- 0xE1 SBC (d,X), R201
  | sbcIzy (d : Byte) -- 0xF1 SBC (d),Y, R201
  | andImm (v : Byte) -- 0x29 AND #v, R202
  | andZp (d : Byte) -- 0x25 AND d, R202
  | andZpx (d : Byte) -- 0x35 AND d,X, R202
  | andAbs (w : Word) -- 0x2D AND w, R202
  | andAbx (w : Word) -- 0x3D AND w,X, R202
  | andAby (w : Word) -- 0x39 AND w,Y, R202
  | andIzx (d : Byte) -- 0x21 AND (d,X), R202
  | andIzy (d : Byte) -- 0x31 AND (d),Y, R202
  | oraImm (v : Byte) -- 0x09 ORA #v, R203
  | oraZp (d : Byte) -- 0x05 ORA d, R203
  | oraZpx (d : Byte) -- 0x15 ORA d,X, R203
  | oraAbs (w : Word) -- 0x0D ORA w, R203
  | oraAbx (w : Word) -- 0x1D ORA w,X, R203
  | oraAby (w : Word) -- 0x19 ORA w,Y, R203
  | oraIzx (d : Byte) -- 0x01 ORA (d,X), R203
  | oraIzy (d : Byte) -- 0x11 ORA (d),Y, R203
  | eorImm (v : Byte) -- 0x49 EOR #v, R204
  | eorZp (d : Byte) -- 0x45 EOR d, R204
  | eorZpx (d : Byte) -- 0x55 EOR d,X, R204
  | eorAbs (w : Word) -- 0x4D EOR w, R204
  | eorAbx (w : Word) -- 0x5D EOR w,X, R204
  | eorAby (w : Word) -- 0x59 EOR w,Y, R204
  | eorIzx (d : Byte) -- 0x41 EOR (d,X), R204
  | eorIzy (d : Byte) -- 0x51 EOR (d),Y, R204
  | bitZp (d : Byte) -- 0x24 BIT d, R205
  | bitAbs (w : Word) -- 0x2C BIT w, R205
  | cmpImm (v : Byte) -- 0xC9 CMP #v, R206
  | cmpZp (d : Byte) -- 0xC5 CMP d, R206
  | cmpZpx (d : Byte) -- 0xD5 CMP d,X, R206
  | cmpAbs (w : Word) -- 0xCD CMP w, R206
  | cmpAbx (w : Word) -- 0xDD CMP w,X, R206
  | cmpAby (w : Word) -- 0xD9 CMP w,Y, R206
  | cmpIzx (d : Byte) -- 0xC1 CMP (d,X), R206
  | cmpIzy (d : Byte) -- 0xD1 CMP (d),Y, R206
  | cpxImm (v : Byte) -- 0xE0 CPX #v, R207
  | cpxZp (d : Byte) -- 0xE4 CPX d, R207
  | cpxAbs (w : Word) -- 0xEC CPX w, R207
  | cpyImm (v : Byte) -- 0xC0 CPY #v, R208
  | cpyZp (d : Byte) -- 0xC4 CPY d, R208
  | cpyAbs (w : Word) -- 0xCC CPY w, R208
  -- Increments and decrements (`43_incdec_shift.md`)
  | incZp (d : Byte) -- 0xE6 INC d, R220
  | incZpx (d : Byte) -- 0xF6 INC d,X, R220
  | incAbs (w : Word) -- 0xEE INC w, R220
  | incAbx (w : Word) -- 0xFE INC w,X, R220
  | decZp (d : Byte) -- 0xC6 DEC d, R221
  | decZpx (d : Byte) -- 0xD6 DEC d,X, R221
  | decAbs (w : Word) -- 0xCE DEC w, R221
  | decAbx (w : Word) -- 0xDE DEC w,X, R221
  | inx -- 0xE8 INX, R222
  | iny -- 0xC8 INY, R223
  | dex -- 0xCA DEX, R224
  | dey -- 0x88 DEY, R225
  -- Shifts and rotates (`43_incdec_shift.md`)
  | aslAcc -- 0x0A ASL A, R226
  | aslZp (d : Byte) -- 0x06 ASL d, R226
  | aslZpx (d : Byte) -- 0x16 ASL d,X, R226
  | aslAbs (w : Word) -- 0x0E ASL w, R226
  | aslAbx (w : Word) -- 0x1E ASL w,X, R226
  | lsrAcc -- 0x4A LSR A, R227
  | lsrZp (d : Byte) -- 0x46 LSR d, R227
  | lsrZpx (d : Byte) -- 0x56 LSR d,X, R227
  | lsrAbs (w : Word) -- 0x4E LSR w, R227
  | lsrAbx (w : Word) -- 0x5E LSR w,X, R227
  | rolAcc -- 0x2A ROL A, R228
  | rolZp (d : Byte) -- 0x26 ROL d, R228
  | rolZpx (d : Byte) -- 0x36 ROL d,X, R228
  | rolAbs (w : Word) -- 0x2E ROL w, R228
  | rolAbx (w : Word) -- 0x3E ROL w,X, R228
  | rorAcc -- 0x6A ROR A, R229
  | rorZp (d : Byte) -- 0x66 ROR d, R229
  | rorZpx (d : Byte) -- 0x76 ROR d,X, R229
  | rorAbs (w : Word) -- 0x6E ROR w, R229
  | rorAbx (w : Word) -- 0x7E ROR w,X, R229
  -- Jumps, subroutines, branches (`44_control_flow.md`)
  | jmpAbs (w : Word) -- 0x4C JMP w, R240
  | jmpInd (w : Word) -- 0x6C JMP (w), R240
  | jsr (w : Word) -- 0x20 JSR w, R241
  | rts -- 0x60 RTS, R242
  | bcc (d : Byte) -- 0x90 BCC d, R243
  | bcs (d : Byte) -- 0xB0 BCS d, R244
  | beq (d : Byte) -- 0xF0 BEQ d, R245
  | bne (d : Byte) -- 0xD0 BNE d, R246
  | bmi (d : Byte) -- 0x30 BMI d, R247
  | bpl (d : Byte) -- 0x10 BPL d, R248
  | bvc (d : Byte) -- 0x50 BVC d, R249
  | bvs (d : Byte) -- 0x70 BVS d, R250
  -- Stack, flags, system (`45_stack_flags_system.md`)
  | pha -- 0x48 PHA, R260
  | php -- 0x08 PHP, R261
  | pla -- 0x68 PLA, R262
  | plp -- 0x28 PLP, R263
  | clc -- 0x18 CLC, R264
  | sec -- 0x38 SEC, R265
  | cli -- 0x58 CLI, R266
  | sei -- 0x78 SEI, R267
  | cld -- 0xD8 CLD, R268
  | sed -- 0xF8 SED, R269
  | clv -- 0xB8 CLV, R270
  | nop -- 0xEA NOP, R271
  | brk -- 0x00 BRK, R272
  | rti -- 0x40 RTI, R273
  deriving DecidableEq, Repr

end Sys2Proof
end

