-- ==== Sys2Proof/WellFormed.lean ====
section
/-! DEFINITION. What is well formed: which mnemonic has which addressing mode (the matrix of
`30_encoding.md` R134), how long each mode's encoding is (R131), and when a ROM image can be loaded
(`70_reset_and_hazards.md` R343). Every operand VALUE is legal (R136), so the checks are on the form of an
instruction and on the image. -/

namespace Sys2Proof

/-- The 56 mnemonics (`30_encoding.md` R134). -/
inductive Mnemonic where
  | ADC | AND | ASL | BCC | BCS | BEQ | BIT | BMI | BNE | BPL | BRK | BVC | BVS | CLC
  | CLD | CLI | CLV | CMP | CPX | CPY | DEC | DEX | DEY | EOR | INC | INX | INY | JMP
  | JSR | LDA | LDX | LDY | LSR | NOP | ORA | PHA | PHP | PLA | PLP | ROL | ROR | RTI
  | RTS | SBC | SEC | SED | SEI | STA | STX | STY | TAX | TAY | TSX | TXA | TXS | TYA
  deriving DecidableEq, Repr

/-- The thirteen addressing-mode tags (`40_addressing_modes.md`). -/
inductive Mode where
  | IMP | ACC | IMM | ZP | ZPX | ZPY | ABS | ABX | ABY | IND | IZX | IZY | REL
  deriving DecidableEq, Repr

/-- Encoded length in bytes of an instruction of this mode (R131). -/
def Mode.length : Mode → Nat
  | .IMP | .ACC => 1
  | .IMM | .ZP | .ZPX | .ZPY | .IZX | .IZY | .REL => 2
  | .ABS | .ABX | .ABY | .IND => 3

/-- The modes a mnemonic exists in: one line of the matrix of R134. -/
def modesOf : Mnemonic → List Mode
  | .ADC | .AND | .CMP | .EOR | .LDA | .ORA | .SBC => [.IMM, .ZP, .ZPX, .ABS, .ABX, .ABY, .IZX, .IZY]
  | .ASL | .LSR | .ROL | .ROR => [.ACC, .ZP, .ZPX, .ABS, .ABX]
  | .BCC | .BCS | .BEQ | .BMI | .BNE | .BPL | .BVC | .BVS => [.REL]
  | .BIT => [.ZP, .ABS]
  | .BRK | .CLC | .CLD | .CLI | .CLV | .DEX | .DEY | .INX | .INY | .NOP | .PHA | .PHP | .PLA | .PLP | .RTI | .RTS | .SEC | .SED | .SEI | .TAX | .TAY | .TSX | .TXA | .TXS | .TYA => [.IMP]
  | .CPX | .CPY => [.IMM, .ZP, .ABS]
  | .DEC | .INC => [.ZP, .ZPX, .ABS, .ABX]
  | .JMP => [.ABS, .IND]
  | .JSR => [.ABS]
  | .LDX => [.IMM, .ZP, .ZPY, .ABS, .ABY]
  | .LDY => [.IMM, .ZP, .ZPX, .ABS, .ABX]
  | .STA => [.ZP, .ZPX, .ABS, .ABX, .ABY, .IZX, .IZY]
  | .STX => [.ZP, .ZPY, .ABS]
  | .STY => [.ZP, .ZPX, .ABS]

/-- A form is well formed when the matrix of R134 has that cell: STA has no immediate form (R183), the
indexed forms of LDX use Y and never X (R181). -/
def formWellFormed (m : Mnemonic) (a : Mode) : Bool := (modesOf m).contains a

/-- The mnemonic of an instruction (its row of R134). -/
def Instr.mnemonic : Instr → Mnemonic
  | .ldaImm _ | .ldaZp _ | .ldaZpx _ | .ldaAbs _ | .ldaAbx _ | .ldaAby _ | .ldaIzx _ | .ldaIzy _ => .LDA
  | .ldxImm _ | .ldxZp _ | .ldxZpy _ | .ldxAbs _ | .ldxAby _ => .LDX
  | .ldyImm _ | .ldyZp _ | .ldyZpx _ | .ldyAbs _ | .ldyAbx _ => .LDY
  | .staZp _ | .staZpx _ | .staAbs _ | .staAbx _ | .staAby _ | .staIzx _ | .staIzy _ => .STA
  | .stxZp _ | .stxZpy _ | .stxAbs _ => .STX
  | .styZp _ | .styZpx _ | .styAbs _ => .STY
  | .tax => .TAX
  | .tay => .TAY
  | .txa => .TXA
  | .tya => .TYA
  | .tsx => .TSX
  | .txs => .TXS
  | .adcImm _ | .adcZp _ | .adcZpx _ | .adcAbs _ | .adcAbx _ | .adcAby _ | .adcIzx _ | .adcIzy _ => .ADC
  | .sbcImm _ | .sbcZp _ | .sbcZpx _ | .sbcAbs _ | .sbcAbx _ | .sbcAby _ | .sbcIzx _ | .sbcIzy _ => .SBC
  | .andImm _ | .andZp _ | .andZpx _ | .andAbs _ | .andAbx _ | .andAby _ | .andIzx _ | .andIzy _ => .AND
  | .oraImm _ | .oraZp _ | .oraZpx _ | .oraAbs _ | .oraAbx _ | .oraAby _ | .oraIzx _ | .oraIzy _ => .ORA
  | .eorImm _ | .eorZp _ | .eorZpx _ | .eorAbs _ | .eorAbx _ | .eorAby _ | .eorIzx _ | .eorIzy _ => .EOR
  | .bitZp _ | .bitAbs _ => .BIT
  | .cmpImm _ | .cmpZp _ | .cmpZpx _ | .cmpAbs _ | .cmpAbx _ | .cmpAby _ | .cmpIzx _ | .cmpIzy _ => .CMP
  | .cpxImm _ | .cpxZp _ | .cpxAbs _ => .CPX
  | .cpyImm _ | .cpyZp _ | .cpyAbs _ => .CPY
  | .incZp _ | .incZpx _ | .incAbs _ | .incAbx _ => .INC
  | .decZp _ | .decZpx _ | .decAbs _ | .decAbx _ => .DEC
  | .inx => .INX
  | .iny => .INY
  | .dex => .DEX
  | .dey => .DEY
  | .aslAcc | .aslZp _ | .aslZpx _ | .aslAbs _ | .aslAbx _ => .ASL
  | .lsrAcc | .lsrZp _ | .lsrZpx _ | .lsrAbs _ | .lsrAbx _ => .LSR
  | .rolAcc | .rolZp _ | .rolZpx _ | .rolAbs _ | .rolAbx _ => .ROL
  | .rorAcc | .rorZp _ | .rorZpx _ | .rorAbs _ | .rorAbx _ => .ROR
  | .jmpAbs _ | .jmpInd _ => .JMP
  | .jsr _ => .JSR
  | .rts => .RTS
  | .bcc _ => .BCC
  | .bcs _ => .BCS
  | .beq _ => .BEQ
  | .bne _ => .BNE
  | .bmi _ => .BMI
  | .bpl _ => .BPL
  | .bvc _ => .BVC
  | .bvs _ => .BVS
  | .pha => .PHA
  | .php => .PHP
  | .pla => .PLA
  | .plp => .PLP
  | .clc => .CLC
  | .sec => .SEC
  | .cli => .CLI
  | .sei => .SEI
  | .cld => .CLD
  | .sed => .SED
  | .clv => .CLV
  | .nop => .NOP
  | .brk => .BRK
  | .rti => .RTI

/-- The addressing mode of an instruction (its column of R134). -/
def Instr.mode : Instr → Mode
  | .tax | .tay | .txa | .tya | .tsx | .txs | .inx | .iny | .dex | .dey | .rts | .pha | .php | .pla | .plp
  | .clc | .sec | .cli | .sei | .cld | .sed | .clv | .nop | .brk | .rti => .IMP
  | .aslAcc | .lsrAcc | .rolAcc | .rorAcc => .ACC
  | .ldaImm _ | .ldxImm _ | .ldyImm _ | .adcImm _ | .sbcImm _ | .andImm _ | .oraImm _ | .eorImm _ | .cmpImm _
  | .cpxImm _ | .cpyImm _ => .IMM
  | .ldaZp _ | .ldxZp _ | .ldyZp _ | .staZp _ | .stxZp _ | .styZp _ | .adcZp _ | .sbcZp _ | .andZp _
  | .oraZp _ | .eorZp _ | .bitZp _ | .cmpZp _ | .cpxZp _ | .cpyZp _ | .incZp _ | .decZp _ | .aslZp _
  | .lsrZp _ | .rolZp _ | .rorZp _ => .ZP
  | .ldaZpx _ | .ldyZpx _ | .staZpx _ | .styZpx _ | .adcZpx _ | .sbcZpx _ | .andZpx _ | .oraZpx _ | .eorZpx _
  | .cmpZpx _ | .incZpx _ | .decZpx _ | .aslZpx _ | .lsrZpx _ | .rolZpx _ | .rorZpx _ => .ZPX
  | .ldxZpy _ | .stxZpy _ => .ZPY
  | .ldaAbs _ | .ldxAbs _ | .ldyAbs _ | .staAbs _ | .stxAbs _ | .styAbs _ | .adcAbs _ | .sbcAbs _ | .andAbs _
  | .oraAbs _ | .eorAbs _ | .bitAbs _ | .cmpAbs _ | .cpxAbs _ | .cpyAbs _ | .incAbs _ | .decAbs _ | .aslAbs _
  | .lsrAbs _ | .rolAbs _ | .rorAbs _ | .jmpAbs _ | .jsr _ => .ABS
  | .ldaAbx _ | .ldyAbx _ | .staAbx _ | .adcAbx _ | .sbcAbx _ | .andAbx _ | .oraAbx _ | .eorAbx _ | .cmpAbx _
  | .incAbx _ | .decAbx _ | .aslAbx _ | .lsrAbx _ | .rolAbx _ | .rorAbx _ => .ABX
  | .ldaAby _ | .ldxAby _ | .staAby _ | .adcAby _ | .sbcAby _ | .andAby _ | .oraAby _ | .eorAby _ | .cmpAby _ => .ABY
  | .jmpInd _ => .IND
  | .ldaIzx _ | .staIzx _ | .adcIzx _ | .sbcIzx _ | .andIzx _ | .oraIzx _ | .eorIzx _ | .cmpIzx _ => .IZX
  | .ldaIzy _ | .staIzy _ | .adcIzy _ | .sbcIzy _ | .andIzy _ | .oraIzy _ | .eorIzy _ | .cmpIzy _ => .IZY
  | .bcc _ | .bcs _ | .beq _ | .bne _ | .bmi _ | .bpl _ | .bvc _ | .bvs _ => .REL

/-- Encoded length of an instruction, 1 to 3 bytes (R130, R131). -/
def Instr.length (i : Instr) : Nat := i.mode.length

/-- An instruction is well formed when its form is a cell of R134. Its operands are never at fault (R136). -/
def Instr.wellFormed (i : Instr) : Bool := formWellFormed i.mnemonic i.mode

/-- A ROM image can be loaded when it reaches to the end of CHR block 1 (R343, decision D18); bytes beyond
are ignored and the header is not looked at. -/
def romImageWellFormed (img : List Byte) : Bool := decide (Config.romImageSize ≤ img.length)

end Sys2Proof
end

