-- ==== Sys2Proof/Decode.lean ====
section
/-! DEFINITION. Decoding and encoding (`30_encoding.md`). The opcode table is a list of rows, one for each
recognised byte (R134); a byte with no row is rejected by name (R135). Decoding is total on any bytes. The
encoder is written apart, from the same matrix. -/

namespace Sys2Proof

/-- What an opcode still needs to become an instruction: nothing (F1), one operand byte (F2) or a
little-endian operand word (F3) (R131). -/
inductive Shape where
  | one (i : Instr)
  | two (f : Byte → Instr)
  | three (f : Word → Instr)

/-- One row of the opcode table: the opcode byte, its mnemonic and mode, and how its operand is read. -/
structure Row where
  opcode : Byte
  mnemonic : Mnemonic
  mode : Mode
  shape : Shape

/-- Rows of the opcodes 0x00 to 0x0F (R134). -/
def rows0 : List Row := [
  ⟨0x00#8, .BRK, .IMP, .one .brk⟩,
  ⟨0x01#8, .ORA, .IZX, .two .oraIzx⟩,
  ⟨0x05#8, .ORA, .ZP, .two .oraZp⟩,
  ⟨0x06#8, .ASL, .ZP, .two .aslZp⟩,
  ⟨0x08#8, .PHP, .IMP, .one .php⟩,
  ⟨0x09#8, .ORA, .IMM, .two .oraImm⟩,
  ⟨0x0A#8, .ASL, .ACC, .one .aslAcc⟩,
  ⟨0x0D#8, .ORA, .ABS, .three .oraAbs⟩,
  ⟨0x0E#8, .ASL, .ABS, .three .aslAbs⟩]

/-- Rows of the opcodes 0x10 to 0x1F (R134). -/
def rows1 : List Row := [
  ⟨0x10#8, .BPL, .REL, .two .bpl⟩,
  ⟨0x11#8, .ORA, .IZY, .two .oraIzy⟩,
  ⟨0x15#8, .ORA, .ZPX, .two .oraZpx⟩,
  ⟨0x16#8, .ASL, .ZPX, .two .aslZpx⟩,
  ⟨0x18#8, .CLC, .IMP, .one .clc⟩,
  ⟨0x19#8, .ORA, .ABY, .three .oraAby⟩,
  ⟨0x1D#8, .ORA, .ABX, .three .oraAbx⟩,
  ⟨0x1E#8, .ASL, .ABX, .three .aslAbx⟩]

/-- Rows of the opcodes 0x20 to 0x2F (R134). -/
def rows2 : List Row := [
  ⟨0x20#8, .JSR, .ABS, .three .jsr⟩,
  ⟨0x21#8, .AND, .IZX, .two .andIzx⟩,
  ⟨0x24#8, .BIT, .ZP, .two .bitZp⟩,
  ⟨0x25#8, .AND, .ZP, .two .andZp⟩,
  ⟨0x26#8, .ROL, .ZP, .two .rolZp⟩,
  ⟨0x28#8, .PLP, .IMP, .one .plp⟩,
  ⟨0x29#8, .AND, .IMM, .two .andImm⟩,
  ⟨0x2A#8, .ROL, .ACC, .one .rolAcc⟩,
  ⟨0x2C#8, .BIT, .ABS, .three .bitAbs⟩,
  ⟨0x2D#8, .AND, .ABS, .three .andAbs⟩,
  ⟨0x2E#8, .ROL, .ABS, .three .rolAbs⟩]

/-- Rows of the opcodes 0x30 to 0x3F (R134). -/
def rows3 : List Row := [
  ⟨0x30#8, .BMI, .REL, .two .bmi⟩,
  ⟨0x31#8, .AND, .IZY, .two .andIzy⟩,
  ⟨0x35#8, .AND, .ZPX, .two .andZpx⟩,
  ⟨0x36#8, .ROL, .ZPX, .two .rolZpx⟩,
  ⟨0x38#8, .SEC, .IMP, .one .sec⟩,
  ⟨0x39#8, .AND, .ABY, .three .andAby⟩,
  ⟨0x3D#8, .AND, .ABX, .three .andAbx⟩,
  ⟨0x3E#8, .ROL, .ABX, .three .rolAbx⟩]

/-- Rows of the opcodes 0x40 to 0x4F (R134). -/
def rows4 : List Row := [
  ⟨0x40#8, .RTI, .IMP, .one .rti⟩,
  ⟨0x41#8, .EOR, .IZX, .two .eorIzx⟩,
  ⟨0x45#8, .EOR, .ZP, .two .eorZp⟩,
  ⟨0x46#8, .LSR, .ZP, .two .lsrZp⟩,
  ⟨0x48#8, .PHA, .IMP, .one .pha⟩,
  ⟨0x49#8, .EOR, .IMM, .two .eorImm⟩,
  ⟨0x4A#8, .LSR, .ACC, .one .lsrAcc⟩,
  ⟨0x4C#8, .JMP, .ABS, .three .jmpAbs⟩,
  ⟨0x4D#8, .EOR, .ABS, .three .eorAbs⟩,
  ⟨0x4E#8, .LSR, .ABS, .three .lsrAbs⟩]

/-- Rows of the opcodes 0x50 to 0x5F (R134). -/
def rows5 : List Row := [
  ⟨0x50#8, .BVC, .REL, .two .bvc⟩,
  ⟨0x51#8, .EOR, .IZY, .two .eorIzy⟩,
  ⟨0x55#8, .EOR, .ZPX, .two .eorZpx⟩,
  ⟨0x56#8, .LSR, .ZPX, .two .lsrZpx⟩,
  ⟨0x58#8, .CLI, .IMP, .one .cli⟩,
  ⟨0x59#8, .EOR, .ABY, .three .eorAby⟩,
  ⟨0x5D#8, .EOR, .ABX, .three .eorAbx⟩,
  ⟨0x5E#8, .LSR, .ABX, .three .lsrAbx⟩]

/-- Rows of the opcodes 0x60 to 0x6F (R134). -/
def rows6 : List Row := [
  ⟨0x60#8, .RTS, .IMP, .one .rts⟩,
  ⟨0x61#8, .ADC, .IZX, .two .adcIzx⟩,
  ⟨0x65#8, .ADC, .ZP, .two .adcZp⟩,
  ⟨0x66#8, .ROR, .ZP, .two .rorZp⟩,
  ⟨0x68#8, .PLA, .IMP, .one .pla⟩,
  ⟨0x69#8, .ADC, .IMM, .two .adcImm⟩,
  ⟨0x6A#8, .ROR, .ACC, .one .rorAcc⟩,
  ⟨0x6C#8, .JMP, .IND, .three .jmpInd⟩,
  ⟨0x6D#8, .ADC, .ABS, .three .adcAbs⟩,
  ⟨0x6E#8, .ROR, .ABS, .three .rorAbs⟩]

/-- Rows of the opcodes 0x70 to 0x7F (R134). -/
def rows7 : List Row := [
  ⟨0x70#8, .BVS, .REL, .two .bvs⟩,
  ⟨0x71#8, .ADC, .IZY, .two .adcIzy⟩,
  ⟨0x75#8, .ADC, .ZPX, .two .adcZpx⟩,
  ⟨0x76#8, .ROR, .ZPX, .two .rorZpx⟩,
  ⟨0x78#8, .SEI, .IMP, .one .sei⟩,
  ⟨0x79#8, .ADC, .ABY, .three .adcAby⟩,
  ⟨0x7D#8, .ADC, .ABX, .three .adcAbx⟩,
  ⟨0x7E#8, .ROR, .ABX, .three .rorAbx⟩]

/-- Rows of the opcodes 0x80 to 0x8F (R134). -/
def rows8 : List Row := [
  ⟨0x81#8, .STA, .IZX, .two .staIzx⟩,
  ⟨0x84#8, .STY, .ZP, .two .styZp⟩,
  ⟨0x85#8, .STA, .ZP, .two .staZp⟩,
  ⟨0x86#8, .STX, .ZP, .two .stxZp⟩,
  ⟨0x88#8, .DEY, .IMP, .one .dey⟩,
  ⟨0x8A#8, .TXA, .IMP, .one .txa⟩,
  ⟨0x8C#8, .STY, .ABS, .three .styAbs⟩,
  ⟨0x8D#8, .STA, .ABS, .three .staAbs⟩,
  ⟨0x8E#8, .STX, .ABS, .three .stxAbs⟩]

/-- Rows of the opcodes 0x90 to 0x9F (R134). -/
def rows9 : List Row := [
  ⟨0x90#8, .BCC, .REL, .two .bcc⟩,
  ⟨0x91#8, .STA, .IZY, .two .staIzy⟩,
  ⟨0x94#8, .STY, .ZPX, .two .styZpx⟩,
  ⟨0x95#8, .STA, .ZPX, .two .staZpx⟩,
  ⟨0x96#8, .STX, .ZPY, .two .stxZpy⟩,
  ⟨0x98#8, .TYA, .IMP, .one .tya⟩,
  ⟨0x99#8, .STA, .ABY, .three .staAby⟩,
  ⟨0x9A#8, .TXS, .IMP, .one .txs⟩,
  ⟨0x9D#8, .STA, .ABX, .three .staAbx⟩]

/-- Rows of the opcodes 0xA0 to 0xAF (R134). -/
def rowsA : List Row := [
  ⟨0xA0#8, .LDY, .IMM, .two .ldyImm⟩,
  ⟨0xA1#8, .LDA, .IZX, .two .ldaIzx⟩,
  ⟨0xA2#8, .LDX, .IMM, .two .ldxImm⟩,
  ⟨0xA4#8, .LDY, .ZP, .two .ldyZp⟩,
  ⟨0xA5#8, .LDA, .ZP, .two .ldaZp⟩,
  ⟨0xA6#8, .LDX, .ZP, .two .ldxZp⟩,
  ⟨0xA8#8, .TAY, .IMP, .one .tay⟩,
  ⟨0xA9#8, .LDA, .IMM, .two .ldaImm⟩,
  ⟨0xAA#8, .TAX, .IMP, .one .tax⟩,
  ⟨0xAC#8, .LDY, .ABS, .three .ldyAbs⟩,
  ⟨0xAD#8, .LDA, .ABS, .three .ldaAbs⟩,
  ⟨0xAE#8, .LDX, .ABS, .three .ldxAbs⟩]

/-- Rows of the opcodes 0xB0 to 0xBF (R134). -/
def rowsB : List Row := [
  ⟨0xB0#8, .BCS, .REL, .two .bcs⟩,
  ⟨0xB1#8, .LDA, .IZY, .two .ldaIzy⟩,
  ⟨0xB4#8, .LDY, .ZPX, .two .ldyZpx⟩,
  ⟨0xB5#8, .LDA, .ZPX, .two .ldaZpx⟩,
  ⟨0xB6#8, .LDX, .ZPY, .two .ldxZpy⟩,
  ⟨0xB8#8, .CLV, .IMP, .one .clv⟩,
  ⟨0xB9#8, .LDA, .ABY, .three .ldaAby⟩,
  ⟨0xBA#8, .TSX, .IMP, .one .tsx⟩,
  ⟨0xBC#8, .LDY, .ABX, .three .ldyAbx⟩,
  ⟨0xBD#8, .LDA, .ABX, .three .ldaAbx⟩,
  ⟨0xBE#8, .LDX, .ABY, .three .ldxAby⟩]

/-- Rows of the opcodes 0xC0 to 0xCF (R134). -/
def rowsC : List Row := [
  ⟨0xC0#8, .CPY, .IMM, .two .cpyImm⟩,
  ⟨0xC1#8, .CMP, .IZX, .two .cmpIzx⟩,
  ⟨0xC4#8, .CPY, .ZP, .two .cpyZp⟩,
  ⟨0xC5#8, .CMP, .ZP, .two .cmpZp⟩,
  ⟨0xC6#8, .DEC, .ZP, .two .decZp⟩,
  ⟨0xC8#8, .INY, .IMP, .one .iny⟩,
  ⟨0xC9#8, .CMP, .IMM, .two .cmpImm⟩,
  ⟨0xCA#8, .DEX, .IMP, .one .dex⟩,
  ⟨0xCC#8, .CPY, .ABS, .three .cpyAbs⟩,
  ⟨0xCD#8, .CMP, .ABS, .three .cmpAbs⟩,
  ⟨0xCE#8, .DEC, .ABS, .three .decAbs⟩]

/-- Rows of the opcodes 0xD0 to 0xDF (R134). -/
def rowsD : List Row := [
  ⟨0xD0#8, .BNE, .REL, .two .bne⟩,
  ⟨0xD1#8, .CMP, .IZY, .two .cmpIzy⟩,
  ⟨0xD5#8, .CMP, .ZPX, .two .cmpZpx⟩,
  ⟨0xD6#8, .DEC, .ZPX, .two .decZpx⟩,
  ⟨0xD8#8, .CLD, .IMP, .one .cld⟩,
  ⟨0xD9#8, .CMP, .ABY, .three .cmpAby⟩,
  ⟨0xDD#8, .CMP, .ABX, .three .cmpAbx⟩,
  ⟨0xDE#8, .DEC, .ABX, .three .decAbx⟩]

/-- Rows of the opcodes 0xE0 to 0xEF (R134). -/
def rowsE : List Row := [
  ⟨0xE0#8, .CPX, .IMM, .two .cpxImm⟩,
  ⟨0xE1#8, .SBC, .IZX, .two .sbcIzx⟩,
  ⟨0xE4#8, .CPX, .ZP, .two .cpxZp⟩,
  ⟨0xE5#8, .SBC, .ZP, .two .sbcZp⟩,
  ⟨0xE6#8, .INC, .ZP, .two .incZp⟩,
  ⟨0xE8#8, .INX, .IMP, .one .inx⟩,
  ⟨0xE9#8, .SBC, .IMM, .two .sbcImm⟩,
  ⟨0xEA#8, .NOP, .IMP, .one .nop⟩,
  ⟨0xEC#8, .CPX, .ABS, .three .cpxAbs⟩,
  ⟨0xED#8, .SBC, .ABS, .three .sbcAbs⟩,
  ⟨0xEE#8, .INC, .ABS, .three .incAbs⟩]

/-- Rows of the opcodes 0xF0 to 0xFF (R134). -/
def rowsF : List Row := [
  ⟨0xF0#8, .BEQ, .REL, .two .beq⟩,
  ⟨0xF1#8, .SBC, .IZY, .two .sbcIzy⟩,
  ⟨0xF5#8, .SBC, .ZPX, .two .sbcZpx⟩,
  ⟨0xF6#8, .INC, .ZPX, .two .incZpx⟩,
  ⟨0xF8#8, .SED, .IMP, .one .sed⟩,
  ⟨0xF9#8, .SBC, .ABY, .three .sbcAby⟩,
  ⟨0xFD#8, .SBC, .ABX, .three .sbcAbx⟩,
  ⟨0xFE#8, .INC, .ABX, .three .incAbx⟩]

/-- The fixed table keyed by the raw opcode byte (R130, R133, R134; `OPCODE_TABLE` at its default, log entry 4). -/
def opcodeTable : List Row :=
  rows0 ++ rows1 ++ rows2 ++ rows3 ++ rows4 ++ rows5 ++ rows6 ++ rows7 ++
  rows8 ++ rows9 ++ rowsA ++ rowsB ++ rowsC ++ rowsD ++ rowsE ++ rowsF

/-- Look an opcode byte up; `none` is an unrecognised opcode (R133, R135). -/
def lookup (b : Byte) : Option Row := opcodeTable.find? fun r => r.opcode == b

/-- The word of two bytes, `(h << 8) | l` (`00_scope.md` R7). -/
def mkWord (h l : Byte) : Word := h ++ l

/-- Bits 15 to 8 of a word (R7). -/
def hiByte (w : Word) : Byte := w.extractLsb' 8 8

/-- Bits 7 to 0 of a word (R7). -/
def loByte (w : Word) : Byte := w.extractLsb' 0 8

/-- Why bytes are not an instruction. -/
inductive DecodeError where
  /-- The first byte has no row in the opcode table (R135). Raised by `decode`; safe, the machine faults there. -/
  | unrecognisedOpcode (b : Byte)
  /-- The bytes end before the instruction does. Raised by `decode` only; the machine never runs out of bytes. Safe. -/
  | outOfBytes
  deriving DecidableEq, Repr

/-- Decode the first instruction of a byte string and give back the bytes after it (R133). -/
def decode : List Byte → Except DecodeError (Instr × List Byte)
  | [] => .error .outOfBytes
  | b :: rest =>
    match lookup b with
    | none => .error (.unrecognisedOpcode b)
    | some row =>
      match row.shape, rest with
      | .one i, rest => .ok (i, rest)
      | .two f, d :: rest => .ok (f d, rest)
      | .three f, l :: h :: rest => .ok (f (mkWord h l), rest)
      | .two _, _ => .error .outOfBytes
      | .three _, _ => .error .outOfBytes

/-- The bytes of an F2 instruction (R131). -/
def encode2 (opcode d : Byte) : List Byte := [opcode, d]

/-- The bytes of an F3 instruction: the operand's low byte first (R131). -/
def encode3 (opcode : Byte) (w : Word) : List Byte := [opcode, loByte w, hiByte w]

/-- The bytes of an instruction, from the matrix of R134 and the formats of R131. -/
def encode : Instr → List Byte
  | .ldaImm v => encode2 0xA9#8 v
  | .ldaZp d => encode2 0xA5#8 d
  | .ldaZpx d => encode2 0xB5#8 d
  | .ldaAbs w => encode3 0xAD#8 w
  | .ldaAbx w => encode3 0xBD#8 w
  | .ldaAby w => encode3 0xB9#8 w
  | .ldaIzx d => encode2 0xA1#8 d
  | .ldaIzy d => encode2 0xB1#8 d
  | .ldxImm v => encode2 0xA2#8 v
  | .ldxZp d => encode2 0xA6#8 d
  | .ldxZpy d => encode2 0xB6#8 d
  | .ldxAbs w => encode3 0xAE#8 w
  | .ldxAby w => encode3 0xBE#8 w
  | .ldyImm v => encode2 0xA0#8 v
  | .ldyZp d => encode2 0xA4#8 d
  | .ldyZpx d => encode2 0xB4#8 d
  | .ldyAbs w => encode3 0xAC#8 w
  | .ldyAbx w => encode3 0xBC#8 w
  | .staZp d => encode2 0x85#8 d
  | .staZpx d => encode2 0x95#8 d
  | .staAbs w => encode3 0x8D#8 w
  | .staAbx w => encode3 0x9D#8 w
  | .staAby w => encode3 0x99#8 w
  | .staIzx d => encode2 0x81#8 d
  | .staIzy d => encode2 0x91#8 d
  | .stxZp d => encode2 0x86#8 d
  | .stxZpy d => encode2 0x96#8 d
  | .stxAbs w => encode3 0x8E#8 w
  | .styZp d => encode2 0x84#8 d
  | .styZpx d => encode2 0x94#8 d
  | .styAbs w => encode3 0x8C#8 w
  | .tax => [0xAA#8]
  | .tay => [0xA8#8]
  | .txa => [0x8A#8]
  | .tya => [0x98#8]
  | .tsx => [0xBA#8]
  | .txs => [0x9A#8]
  | .adcImm v => encode2 0x69#8 v
  | .adcZp d => encode2 0x65#8 d
  | .adcZpx d => encode2 0x75#8 d
  | .adcAbs w => encode3 0x6D#8 w
  | .adcAbx w => encode3 0x7D#8 w
  | .adcAby w => encode3 0x79#8 w
  | .adcIzx d => encode2 0x61#8 d
  | .adcIzy d => encode2 0x71#8 d
  | .sbcImm v => encode2 0xE9#8 v
  | .sbcZp d => encode2 0xE5#8 d
  | .sbcZpx d => encode2 0xF5#8 d
  | .sbcAbs w => encode3 0xED#8 w
  | .sbcAbx w => encode3 0xFD#8 w
  | .sbcAby w => encode3 0xF9#8 w
  | .sbcIzx d => encode2 0xE1#8 d
  | .sbcIzy d => encode2 0xF1#8 d
  | .andImm v => encode2 0x29#8 v
  | .andZp d => encode2 0x25#8 d
  | .andZpx d => encode2 0x35#8 d
  | .andAbs w => encode3 0x2D#8 w
  | .andAbx w => encode3 0x3D#8 w
  | .andAby w => encode3 0x39#8 w
  | .andIzx d => encode2 0x21#8 d
  | .andIzy d => encode2 0x31#8 d
  | .oraImm v => encode2 0x09#8 v
  | .oraZp d => encode2 0x05#8 d
  | .oraZpx d => encode2 0x15#8 d
  | .oraAbs w => encode3 0x0D#8 w
  | .oraAbx w => encode3 0x1D#8 w
  | .oraAby w => encode3 0x19#8 w
  | .oraIzx d => encode2 0x01#8 d
  | .oraIzy d => encode2 0x11#8 d
  | .eorImm v => encode2 0x49#8 v
  | .eorZp d => encode2 0x45#8 d
  | .eorZpx d => encode2 0x55#8 d
  | .eorAbs w => encode3 0x4D#8 w
  | .eorAbx w => encode3 0x5D#8 w
  | .eorAby w => encode3 0x59#8 w
  | .eorIzx d => encode2 0x41#8 d
  | .eorIzy d => encode2 0x51#8 d
  | .bitZp d => encode2 0x24#8 d
  | .bitAbs w => encode3 0x2C#8 w
  | .cmpImm v => encode2 0xC9#8 v
  | .cmpZp d => encode2 0xC5#8 d
  | .cmpZpx d => encode2 0xD5#8 d
  | .cmpAbs w => encode3 0xCD#8 w
  | .cmpAbx w => encode3 0xDD#8 w
  | .cmpAby w => encode3 0xD9#8 w
  | .cmpIzx d => encode2 0xC1#8 d
  | .cmpIzy d => encode2 0xD1#8 d
  | .cpxImm v => encode2 0xE0#8 v
  | .cpxZp d => encode2 0xE4#8 d
  | .cpxAbs w => encode3 0xEC#8 w
  | .cpyImm v => encode2 0xC0#8 v
  | .cpyZp d => encode2 0xC4#8 d
  | .cpyAbs w => encode3 0xCC#8 w
  | .incZp d => encode2 0xE6#8 d
  | .incZpx d => encode2 0xF6#8 d
  | .incAbs w => encode3 0xEE#8 w
  | .incAbx w => encode3 0xFE#8 w
  | .decZp d => encode2 0xC6#8 d
  | .decZpx d => encode2 0xD6#8 d
  | .decAbs w => encode3 0xCE#8 w
  | .decAbx w => encode3 0xDE#8 w
  | .inx => [0xE8#8]
  | .iny => [0xC8#8]
  | .dex => [0xCA#8]
  | .dey => [0x88#8]
  | .aslAcc => [0x0A#8]
  | .aslZp d => encode2 0x06#8 d
  | .aslZpx d => encode2 0x16#8 d
  | .aslAbs w => encode3 0x0E#8 w
  | .aslAbx w => encode3 0x1E#8 w
  | .lsrAcc => [0x4A#8]
  | .lsrZp d => encode2 0x46#8 d
  | .lsrZpx d => encode2 0x56#8 d
  | .lsrAbs w => encode3 0x4E#8 w
  | .lsrAbx w => encode3 0x5E#8 w
  | .rolAcc => [0x2A#8]
  | .rolZp d => encode2 0x26#8 d
  | .rolZpx d => encode2 0x36#8 d
  | .rolAbs w => encode3 0x2E#8 w
  | .rolAbx w => encode3 0x3E#8 w
  | .rorAcc => [0x6A#8]
  | .rorZp d => encode2 0x66#8 d
  | .rorZpx d => encode2 0x76#8 d
  | .rorAbs w => encode3 0x6E#8 w
  | .rorAbx w => encode3 0x7E#8 w
  | .jmpAbs w => encode3 0x4C#8 w
  | .jmpInd w => encode3 0x6C#8 w
  | .jsr w => encode3 0x20#8 w
  | .rts => [0x60#8]
  | .bcc d => encode2 0x90#8 d
  | .bcs d => encode2 0xB0#8 d
  | .beq d => encode2 0xF0#8 d
  | .bne d => encode2 0xD0#8 d
  | .bmi d => encode2 0x30#8 d
  | .bpl d => encode2 0x10#8 d
  | .bvc d => encode2 0x50#8 d
  | .bvs d => encode2 0x70#8 d
  | .pha => [0x48#8]
  | .php => [0x08#8]
  | .pla => [0x68#8]
  | .plp => [0x28#8]
  | .clc => [0x18#8]
  | .sec => [0x38#8]
  | .cli => [0x58#8]
  | .sei => [0x78#8]
  | .cld => [0xD8#8]
  | .sed => [0xF8#8]
  | .clv => [0xB8#8]
  | .nop => [0xEA#8]
  | .brk => [0x00#8]
  | .rti => [0x40#8]

/-- The longest instruction's three bytes of a number whose bit 0 is the least significant bit of the first
byte, and whose bits from `nbits` on count as 0. -/
def tableBytes (nbits w : Nat) : List Byte :=
  let v := w % 2 ^ nbits
  [BitVec.ofNat 8 v, BitVec.ofNat 8 (v / 2 ^ 8), BitVec.ofNat 8 (v / 2 ^ 16)]

/-- The instruction the decoder reads from an opcode-table word. -/
def decodeTableWord (nbits w : Nat) : Option Instr :=
  match decode (tableBytes nbits w) with
  | .ok (i, _) => some i
  | .error _ => none

end Sys2Proof
end

