-- ==== Sys2Proof/Machine/Params.lean ====
section
/-! DEFINITION. The parameters the spec leaves open, each at the spec's default (`92_eei_decisions.md`, "Points
deliberately left OPEN"; `00_scope.md` R6): `RAM_SIZE`, the ports, the BRK vector. `OPCODE_TABLE` and
`BRK_RECOGNISED` are the rows of `Decode.lean`. -/

namespace Sys2Proof.Config

/-- `RAM_SIZE`, 2 KiB (decision D5, log entry 3). -/
abbrev ramSize : Nat := 0x0800

/-- `VEC_BRK` (decision D2, log entry 4). -/
abbrev vecBrk : Word := 0xFFFE#16

/-- `PORT_CTRL` (decision D10, log entry 5, as the seven that follow). -/
abbrev portCtrl : Word := 0x2000#16

/-- `PORT_MASK`. -/
abbrev portMask : Word := 0x2001#16

/-- `PORT_STATUS`. -/
abbrev portStatus : Word := 0x2002#16

/-- `PORT_OAMADDR`. -/
abbrev portOamAddr : Word := 0x2003#16

/-- `PORT_OAMDATA`. -/
abbrev portOamData : Word := 0x2004#16

/-- `PORT_VADDR`. -/
abbrev portVaddr : Word := 0x2006#16

/-- `PORT_VDATA`. -/
abbrev portVdata : Word := 0x2007#16

/-- `PORT_DMA`. -/
abbrev portDma : Word := 0x4014#16

end Sys2Proof.Config
end

