-- ==== Sys2Proof/Machine/Memory.lean ====
section
/-! DEFINITION. A byte memory as plain data: a list of cells in one canonical form. Each memory of the machine
(RAM, the PRG banks, OAM, the four Picture-Memory arrays) is one, keyed by the offset inside it. -/

namespace Sys2Proof.Machine

/-- Cells of offset and byte; an offset that is not listed reads as `Memory.unlisted`. -/
abbrev Memory := List Host.Cell

/-- What an unlisted offset reads as. DESIGN CHOICE, unsafe: the spec gives no construction value for any
memory (`10_state.md` R52), log entry 2. -/
def Memory.unlisted : Byte := 0x00#8

/-- The canonical form: offsets strictly rising, no entry equal to what an unlisted offset reads as. -/
abbrev Memory.wf (m : Memory) : Prop :=
  m.Pairwise (fun c d => c.1 < d.1) ∧ ∀ c ∈ m, c.2 ≠ Memory.unlisted

/-- Every listed offset is below the memory's size. -/
abbrev Memory.within (size : Nat) (m : Memory) : Prop := ∀ c ∈ m, c.1 < size

/-- The byte at an offset. -/
def Memory.read : Memory → Nat → Byte
  | [], _ => Memory.unlisted
  | c :: m, k => if c.1 = k then c.2 else Memory.read m k

/-- Put a cell before the first cell with a higher offset. -/
def Memory.insertCell (k : Nat) (b : Byte) : Memory → Memory
  | [] => [(k, b)]
  | c :: m => if k < c.1 then (k, b) :: c :: m else c :: Memory.insertCell k b m

/-- Store a byte at an offset, keeping the canonical form. -/
def Memory.write (m : Memory) (k : Nat) (b : Byte) : Memory :=
  let rest := m.filter fun c => c.1 != k
  if b = Memory.unlisted then rest else Memory.insertCell k b rest

/-- The `n` bytes from offset `base` on, as a memory of their own that begins at 0. -/
def Memory.window (m : Memory) (base n : Nat) : Memory :=
  m.filterMap fun c => if base ≤ c.1 ∧ c.1 < base + n then some (c.1 - base, c.2) else none

/-- A memory that holds a byte sequence from offset `start` on. -/
def Memory.ofBytes (start : Nat) : List Byte → Memory
  | [] => []
  | b :: bs => (if b = Memory.unlisted then [] else [(start, b)]) ++ Memory.ofBytes (start + 1) bs

end Sys2Proof.Machine
end

