-- ==== Sys2Proof/Machine/State.lean ====
section
/-! DEFINITION. The machine's state, exactly the tuple of `10_state.md`, as plain data; the reasons a step can
stop; the state right after construction; one named update for each field. -/

namespace Sys2Proof.Machine

/-- The whole state of the machine (`10_state.md`). -/
@[ext]
structure State where
  /-- `A`, the accumulator (R20). -/
  a : Byte
  /-- `X`, index register (R20). -/
  x : Byte
  /-- `Y`, index register (R20). -/
  y : Byte
  /-- `S`, the stack pointer, an offset into page 0x0100 (R21). -/
  sp : Byte
  /-- `PC` (R22). -/
  pc : Word
  /-- `P`: bit 7 N, 6 V, 5 unused, 4 break, 3 D, 2 I, 1 Z, 0 C (R23). -/
  p : Byte
  /-- `RAM`, 0x0800 bytes (R40). -/
  ram : Memory
  /-- `PRG_LO`, 0x4000 bytes (R40). -/
  prgLo : Memory
  /-- `PRG_HI`, 0x4000 bytes (R40). -/
  prgHi : Memory
  /-- `LAST_RD`, the address of the last bus read (R41). -/
  lastRd : Word
  /-- `LAST_WR`, the address of the last bus write (R41). -/
  lastWr : Word
  /-- `PPUCTRL` (R42). -/
  ppuctrl : Byte
  /-- `PPUMASK` (R43). -/
  ppumask : Byte
  /-- `PPUSTATUS`, bit 7 is vblank (R44). -/
  ppustatus : Byte
  /-- `VADDR`, the VRAM pointer (R45). -/
  vaddr : Word
  /-- `W`, the write toggle: false means the next address write gives the high byte (R46). -/
  w : Bool
  /-- `OAM`, 0x100 bytes (R47). -/
  oam : Memory
  /-- `PT0`, 0x1000 bytes (R48). -/
  pt0 : Memory
  /-- `PT1`, 0x1000 bytes (R48). -/
  pt1 : Memory
  /-- `NT`, 0x1000 bytes (R48, `20_memory.md` R114). -/
  nt : Memory
  /-- `PAL`, 0x100 bytes (R48). -/
  pal : Memory
  /-- `NMI_PENDING` (R49). -/
  nmiPending : Bool
  deriving DecidableEq, Repr

/-- The machine's one error (`60_exceptions.md` R300, R301). -/
inductive Fault where
  /-- Raised by the fetch in `step` when the byte has no row in the opcode table (R135). It carries the byte and
  the state the step left, from which the host may go on (R300, D21). Safe: it is the spec's own outcome. -/
  | illegalOpcode (byte : Byte) (after : State)
  deriving DecidableEq, Repr

/-- Points where the spec gives an access no meaning and no next state (`00_scope.md` R11). -/
inductive Refusal where
  /-- Raised by `exec` for an instruction that has no meaning yet; no arm does. Safe. -/
  | notModelled (mnemonic : String)
  /-- Raised by a bus access to 0x0800 to 0x1FFF (`20_memory.md` R81, D5). Safe. -/
  | ramOutOfRange
  /-- Raised by a Picture-Memory access past the end of a region (R113, D6). Safe. -/
  | pictureMemoryOutOfRange
  /-- Raised by sprite DMA from a page that is not RAM (R96, D14). Safe. -/
  | dmaSourceOutOfRange
  /-- Raised by the host's ROM load for an image that is too short (`70_reset_and_hazards.md` R343). Safe. -/
  | romImageTooShort
  deriving DecidableEq, Repr

/-- The three outcomes of a step (R11). -/
abbrev Out := Host.Outcome State Fault Refusal

/-- The state right after construction (R52, R340). `a`, `x`, `y`, `sp`, `p`, `w` and `nmiPending` are the spec's;
every other value is a DESIGN CHOICE, unsafe, since the spec says "unspecified" (log entries 1 and 2). -/
def State.reset : State where
  a := 0x00#8
  x := 0x00#8
  y := 0x00#8
  sp := 0xFD#8
  pc := 0x0000#16
  p := 0x24#8
  ram := []
  prgLo := []
  prgHi := []
  lastRd := 0x0000#16
  lastWr := 0x0000#16
  ppuctrl := 0x00#8
  ppumask := 0x00#8
  ppustatus := 0x00#8
  vaddr := 0x0000#16
  w := false
  oam := []
  pt0 := []
  pt1 := []
  nt := []
  pal := []
  nmiPending := false

-- One update for each field.
def State.setA (s : State) (v : Byte) : State := { s with a := v }
def State.setX (s : State) (v : Byte) : State := { s with x := v }
def State.setY (s : State) (v : Byte) : State := { s with y := v }
def State.setSp (s : State) (v : Byte) : State := { s with sp := v }
def State.setPc (s : State) (v : Word) : State := { s with pc := v }
def State.setP (s : State) (v : Byte) : State := { s with p := v }
def State.setRam (s : State) (v : Memory) : State := { s with ram := v }
def State.setPrgLo (s : State) (v : Memory) : State := { s with prgLo := v }
def State.setPrgHi (s : State) (v : Memory) : State := { s with prgHi := v }
def State.setLastRd (s : State) (v : Word) : State := { s with lastRd := v }
def State.setLastWr (s : State) (v : Word) : State := { s with lastWr := v }
def State.setPpuctrl (s : State) (v : Byte) : State := { s with ppuctrl := v }
def State.setPpumask (s : State) (v : Byte) : State := { s with ppumask := v }
def State.setPpustatus (s : State) (v : Byte) : State := { s with ppustatus := v }
def State.setVaddr (s : State) (v : Word) : State := { s with vaddr := v }
def State.setW (s : State) (v : Bool) : State := { s with w := v }
def State.setOam (s : State) (v : Memory) : State := { s with oam := v }
def State.setPt0 (s : State) (v : Memory) : State := { s with pt0 := v }
def State.setPt1 (s : State) (v : Memory) : State := { s with pt1 := v }
def State.setNt (s : State) (v : Memory) : State := { s with nt := v }
def State.setPal (s : State) (v : Memory) : State := { s with pal := v }
def State.setNmiPending (s : State) (v : Bool) : State := { s with nmiPending := v }

end Sys2Proof.Machine
end

