-- ==== Sys2Proof/Machine/PictureUnit.lean ====
section
/-! DEFINITION. The Picture-Unit: Picture-Memory with its range decode (`20_memory.md` R110 to R114) and what the
I/O range does on a read and on a write (R85 to R96). -/

namespace Sys2Proof.Machine

/-- The four Picture-Memory arrays (`10_state.md` R48). -/
inductive PRegion where
  | pal | nt | pt1 | pt0
  deriving DecidableEq, Repr

/-- The range decode, tested in the spec's order: region and offset (R112). -/
def pmemDecode (p : Word) : PRegion × Nat :=
  if 0x3F00 ≤ p.toNat then (.pal, p.toNat - 0x3F00)
  else if 0x2000 ≤ p.toNat then (.nt, p.toNat - 0x2000)
  else if 0x1000 ≤ p.toNat then (.pt1, p.toNat - 0x1000)
  else (.pt0, p.toNat)

/-- How many bytes a region holds (R113). -/
def PRegion.size : PRegion → Nat
  | .pal => Config.palSize
  | .nt => Config.ntSize
  | .pt1 => Config.ptSize
  | .pt0 => Config.ptSize

/-- The array of a region. -/
def State.pmem (s : State) : PRegion → Memory
  | .pal => s.pal
  | .nt => s.nt
  | .pt1 => s.pt1
  | .pt0 => s.pt0

/-- Replace the array of a region. -/
def State.setPmem (s : State) (m : Memory) : PRegion → State
  | .pal => s.setPal m
  | .nt => s.setNt m
  | .pt1 => s.setPt1 m
  | .pt0 => s.setPt0 m

/-- `PMemRead(p)` (R110): no side effect; refused past the end of the region (R113). -/
def pmemRead (p : Word) (s : State) : Except Refusal Byte :=
  let (r, k) := pmemDecode p
  if k < r.size then .ok ((s.pmem r).read k) else .error .pictureMemoryOutOfRange

/-- `PMemWrite(p, v)` (R111): every region is writable; refused past the end of the region (R113). -/
def pmemWrite (p : Word) (v : Byte) (s : State) : Except Refusal State :=
  let (r, k) := pmemDecode p
  if k < r.size then .ok (s.setPmem ((s.pmem r).write k v) r) else .error .pictureMemoryOutOfRange

/-- The value a read of an I/O address gives (R85): the status byte, and 0 everywhere else (R86 to R88). -/
def ioValue (a : Word) (s : State) : Byte :=
  if a = Config.portStatus then s.ppustatus
  else if a = Config.portVdata then 0x00#8
  else 0x00#8

/-- What a read of an I/O address changes: a status read clears bit 7 (R86); nothing else does anything, the
write toggle and the pointer stay (R87, R88, `70_reset_and_hazards.md` R351). -/
def ioReadEffect (a : Word) (s : State) : State :=
  if a = Config.portStatus then s.setPpustatus (s.ppustatus &&& 0x7F#8) else s

/-- A write of the VRAM address port, high byte first (R94); the first write keeps the old low byte (D12). -/
def writeVaddr (v : Byte) (s : State) : State :=
  if s.w then (s.setVaddr (mkWord (hiByte s.vaddr) v)).setW false
  else (s.setVaddr (mkWord v (loByte s.vaddr))).setW true

/-- A write of the VRAM data port: through to Picture-Memory, then the pointer steps by 1 (R95). -/
def writeVdata (v : Byte) (s : State) : Except Refusal State := do
  let t ← pmemWrite s.vaddr v s
  .ok (t.setVaddr (t.vaddr + 1#16))

/-- Sprite DMA: 256 bytes of the RAM array, refused unless the page lies inside RAM (R96). -/
def spriteDma (v : Byte) (s : State) : Except Refusal State :=
  let base := v.toNat * 0x100
  if Config.ramSize ≤ base + 0xFF then .error .dmaSourceOutOfRange
  else .ok (s.setOam (s.ram.window base Config.oamSize))

/-- What a write of an I/O address does (R89 to R96). -/
def ioWrite (a : Word) (v : Byte) (s : State) : Except Refusal State :=
  if a = Config.portCtrl then .ok (s.setPpuctrl v)
  else if a = Config.portMask then .ok (s.setPpumask v)
  else if a = Config.portOamAddr then .ok s
  else if a = Config.portOamData then .ok s
  else if a = Config.portVaddr then .ok (writeVaddr v s)
  else if a = Config.portVdata then writeVdata v s
  else if a = Config.portDma then spriteDma v s
  else .ok s

end Sys2Proof.Machine
end

