-- ==== Sys2Proof/Machine/Bus.lean ====
section
/-! DEFINITION. The bus: address dispatch and the byte and word primitives (`20_memory.md` R70 to R84). -/

namespace Sys2Proof.Machine

/-- The five regions of the CPU address space (R80). -/
inductive Region where
  | ram | io | expansion | prgLo | prgHi
  deriving DecidableEq, Repr

/-- Dispatch: ranges are half-open and the highest matching range wins (R80). -/
def regionOf (a : Word) : Region :=
  if Config.prgHiBase ≤ a.toNat then .prgHi
  else if Config.prgLoBase ≤ a.toNat then .prgLo
  else if Config.expBase ≤ a.toNat then .expansion
  else if Config.ioBase ≤ a.toNat then .io
  else .ram

/-- The addresses of the RAM range with no storage behind them (R81, conflict C2). -/
abbrev Hole (a : Word) : Prop := 0x0800 ≤ a.toNat ∧ a.toNat ≤ 0x1FFF

/-- The value a bus read of `a` gives (R80 to R88), refused where the RAM range has no storage (R81). -/
def busValue (a : Word) (s : State) : Except Refusal Byte :=
  match regionOf a with
  | .prgHi => .ok (s.prgHi.read (a.toNat - Config.prgHiBase))
  | .prgLo => .ok (s.prgLo.read (a.toNat - Config.prgLoBase))
  | .expansion => .ok 0x00#8
  | .io => .ok (ioValue a s)
  | .ram => if a.toNat < Config.ramSize then .ok (s.ram.read a.toNat) else .error .ramOutOfRange

/-- What a bus read of `a` changes: `LAST_RD` in every region (R70), and the I/O side effect (R86). -/
def readEffect (a : Word) (s : State) : State :=
  match regionOf a with
  | .io => ioReadEffect a (s.setLastRd a)
  | _ => s.setLastRd a

/-- `Read8(a)` (R70). -/
def read8 (a : Word) (s : State) : Except Refusal (Byte × State) := do
  let v ← busValue a s
  .ok (v, readEffect a s)

/-- `Write8(a, v)` (R71): `LAST_WR` in every region; ROM and the expansion range take nothing (R83, R84). -/
def write8 (a : Word) (v : Byte) (s : State) : Except Refusal State :=
  let s := s.setLastWr a
  match regionOf a with
  | .prgHi => .ok s
  | .prgLo => .ok s
  | .expansion => .ok s
  | .io => ioWrite a v s
  | .ram => if a.toNat < Config.ramSize then .ok (s.setRam (s.ram.write a.toNat v)) else .error .ramOutOfRange

/-- `Read16(a)`: low byte first, the second address modulo 65536 (R72). -/
def read16 (a : Word) (s : State) : Except Refusal (Word × State) := do
  let (lo, s) ← read8 a s
  let (hi, s) ← read8 (a + 1#16) s
  .ok (mkWord hi lo, s)

/-- `Read16ZP(a)` of a zero-page address: the high byte's address wraps inside the zero page (R73). -/
def read16ZP (z : Byte) (s : State) : Except Refusal (Word × State) := do
  let (lo, s) ← read8 (z.setWidth 16) s
  let (hi, s) ← read8 ((z + 1#8).setWidth 16) s
  .ok (mkWord hi lo, s)

/-- The byte at a CPU address as a snapshot shows it, with no side effect (`60_exceptions.md` R323); `none`
where the RAM range has no storage. -/
def State.peek (s : State) (a : Word) : Option Byte :=
  match busValue a s with
  | .ok v => some v
  | .error _ => none

end Sys2Proof.Machine
end

