-- ==== Sys2Proof/Machine/Flags.lean ====
section
/-! DEFINITION. The status byte and every flag computation (`10_state.md` R23 to R37, `42_arithmetic_logic.md`,
`43_incdec_shift.md`). A computation takes `P` and gives the new `P`; where it has a result, the pair of both. -/

namespace Sys2Proof.Machine

/-- `P.X <- b` for bit `k`: that one bit and no other (R23). -/
def setFlag (k : Nat) (b : Bool) (p : Byte) : Byte :=
  if b then p ||| (1#8 <<< k) else p &&& ~~~(1#8 <<< k)

/-- Carry, bit 0 (R23, R24). -/
def getC (p : Byte) : Bool := p.getLsbD 0
/-- Zero, bit 1 (R23, R25). -/
def getZ (p : Byte) : Bool := p.getLsbD 1
/-- Interrupt-disable, bit 2 (R23, R26). -/
def getI (p : Byte) : Bool := p.getLsbD 2
/-- Decimal, bit 3 (R23, R27). -/
def getD (p : Byte) : Bool := p.getLsbD 3
/-- Break, bit 4 (R23, R28). -/
def getB (p : Byte) : Bool := p.getLsbD 4
/-- Unused, bit 5 (R23, R28). -/
def getU (p : Byte) : Bool := p.getLsbD 5
/-- Overflow, bit 6 (R23, R29). -/
def getV (p : Byte) : Bool := p.getLsbD 6
/-- Negative, bit 7 (R23, R29). -/
def getN (p : Byte) : Bool := p.getLsbD 7

/-- `P.C <- b`. -/
def setC (b : Bool) (p : Byte) : Byte := setFlag 0 b p
/-- `P.Z <- b`. -/
def setZ (b : Bool) (p : Byte) : Byte := setFlag 1 b p
/-- `P.I <- b`. -/
def setI (b : Bool) (p : Byte) : Byte := setFlag 2 b p
/-- `P.D <- b`. -/
def setD (b : Bool) (p : Byte) : Byte := setFlag 3 b p
/-- `P.V <- b`. -/
def setV (b : Bool) (p : Byte) : Byte := setFlag 6 b p
/-- `P.N <- b`. -/
def setN (b : Bool) (p : Byte) : Byte := setFlag 7 b p

/-- `SetZN(v)` (R36). -/
def setZN (v p : Byte) : Byte := setN (v.getLsbD 7) (setZ (v == 0x00#8) p)

/-- The mask of the break and unused bits (R28, R261). -/
def breakUnused : Byte := 0x30#8

/-- PLP and RTI: the pulled byte, with the stored break and unused bits kept (R263, R273). -/
def mergeStatus (p v : Byte) : Byte := (p &&& 0x30#8) ||| (v &&& 0xCF#8)

/-- ADC (R200): the sum is formed as an unbounded integer, carry is its unsigned overflow (R210). -/
def adc (a m p : Byte) : Byte × Byte :=
  let sum : Nat := a.toNat + m.toNat + (getC p).toNat
  let r : Byte := BitVec.ofNat 8 sum
  let c : Bool := decide (0xFF < sum)
  let v : Bool := (a ^^^ r) &&& (m ^^^ r) &&& 0x80#8 != 0x00#8
  (r, setZN r (setV v (setC c p)))

/-- SBC (R201): the difference is a signed integer; carry says that no borrow occurred
(`90_conflicts.md` C1). -/
def sbc (a m p : Byte) : Byte × Byte :=
  let diff : Int := (a.toNat : Int) - m.toNat - (1 - (getC p).toNat)
  let r : Byte := BitVec.ofInt 8 diff
  let c : Bool := decide (0 ≤ diff)
  let v : Bool := (a ^^^ m) &&& (a ^^^ r) &&& 0x80#8 != 0x00#8
  (r, setZN r (setV v (setC c p)))

/-- `Compare(reg, M)` (R211). -/
def compareFlags (reg m p : Byte) : Byte := setZN (reg - m) (setC (decide (m.toNat ≤ reg.toNat)) p)

/-- BIT (R205): Z from `A & M`, N and V from the memory byte. -/
def bitTest (a m p : Byte) : Byte := setV (m.getLsbD 6) (setN (m.getLsbD 7) (setZ (a &&& m == 0x00#8) p))

/-- Increment (R220, R222, R223). -/
def inc (v p : Byte) : Byte × Byte := (v + 1#8, setZN (v + 1#8) p)

/-- Decrement (R221, R224, R225). -/
def dec (v p : Byte) : Byte × Byte := (v - 1#8, setZN (v - 1#8) p)

/-- ASL (R226). -/
def asl (v p : Byte) : Byte × Byte :=
  let r := v <<< 1
  (r, setZN r (setC (v.getLsbD 7) p))

/-- LSR (R227). -/
def lsr (v p : Byte) : Byte × Byte :=
  let r := v >>> 1
  (r, setZN r (setC (v.getLsbD 0) p))

/-- ROL (R228): the old carry comes in at bit 0. -/
def rol (v p : Byte) : Byte × Byte :=
  let r := (v <<< 1) ||| (if getC p then 0x01#8 else 0x00#8)
  (r, setZN r (setC (v.getLsbD 7) p))

/-- ROR (R229): the old carry comes in at bit 7. -/
def ror (v p : Byte) : Byte × Byte :=
  let r := (v >>> 1) ||| (if getC p then 0x80#8 else 0x00#8)
  (r, setZN r (setC (v.getLsbD 0) p))

end Sys2Proof.Machine
end

