-- ==== Sys2Proof/Machine/Ops.lean ====
section
/-! DEFINITION. The named operations of the CPU over the bus: fetch primitives (`40_addressing_modes.md` R160,
R161), stack primitives (`10_state.md` R30, R31), entering a handler and returning from one
(`60_exceptions.md` R307, R313, R311). -/

namespace Sys2Proof.Machine

/-- The outcome of an operation that either gives the next state or is refused. -/
def finish : Except Refusal State → Out
  | .ok s => .next s
  | .error r => .refused r

/-- `Fetch8()` (R160). -/
def fetch8 (s : State) : Except Refusal (Byte × State) := do
  let (b, s) ← read8 s.pc s
  .ok (b, s.setPc (s.pc + 1#16))

/-- `Fetch16()` (R161). -/
def fetch16 (s : State) : Except Refusal (Word × State) := do
  let (w, s) ← read16 s.pc s
  .ok (w, s.setPc (s.pc + 2#16))

/-- The cell the stack pointer names (R21). -/
def stackAddr (sp : Byte) : Word := Config.stackBase + sp.setWidth 16

/-- `Push(v)` (R30): through the bus, then `S` goes down by 1 modulo 256. -/
def push (v : Byte) (s : State) : Except Refusal State := do
  let s ← write8 (stackAddr s.sp) v s
  .ok (s.setSp (s.sp - 1#8))

/-- `Pop()` (R31): `S` goes up by 1 modulo 256, then a bus read. -/
def pop (s : State) : Except Refusal (Byte × State) :=
  let s := s.setSp (s.sp + 1#8)
  read8 (stackAddr s.sp) s

/-- Enter a handler: push `ret` (high byte, low byte) and `status`, make the stored status `newP`, and take `PC`
from the vector. NMI entry (R307) and BRK (R272) are this operation. -/
def enterHandler (ret : Word) (status newP : Byte) (vector : Word) (s : State) : Except Refusal State := do
  let s ← push (hiByte ret) s
  let s ← push (loByte ret) s
  let s ← push status s
  let s := s.setP newP
  let (target, s) ← read16 vector s
  .ok (s.setPc target)

/-- RTI (R273): the status with its bits 4 and 5 kept, then `PC`, low byte first, with no increment. -/
def returnFromHandler (s : State) : Except Refusal State := do
  let (v, s) ← pop s
  let s := s.setP (mergeStatus s.p v)
  let (lo, s) ← pop s
  let (hi, s) ← pop s
  .ok (s.setPc (mkWord hi lo))

/-- `NmiEntry()` (R307): `PC` and `P` as stored, `P` unchanged, vector 0xFFFA. -/
def nmiEntry (s : State) : Except Refusal State := enterHandler s.pc s.p s.p Config.vecNmi s

/-- The NMI gate: a request is pending and bit 7 of the control register is set; `P.I` is not asked (R306). -/
def nmiTaken (s : State) : Bool := s.nmiPending && s.ppuctrl.getLsbD 7

/-- The NMI test at the start of a step (R306, R310): taken, it clears the request and enters the handler. -/
def nmiPrelude (s : State) : Except Refusal State :=
  if nmiTaken s then nmiEntry (s.setNmiPending false) else .ok s

end Sys2Proof.Machine
end

