-- ==== Sys2Proof/Machine/Operands.lean ====
section
/-! DEFINITION. Operand forms: the memory modes and their effective addresses (`40_addressing_modes.md` R165 to
R173), and the access classes of R175. -/

namespace Sys2Proof.Machine

/-- The nine modes that yield an effective address, with their operand bytes. -/
inductive Mem where
  | zp (d : Byte) | zpx (d : Byte) | zpy (d : Byte)
  | abs (w : Word) | abx (w : Word) | aby (w : Word)
  | ind (w : Word) | izx (d : Byte) | izy (d : Byte)
  deriving DecidableEq, Repr

/-- Every operand an instruction can have (R162 to R174). -/
inductive Operand where
  | implied
  | accumulator
  | immediate (v : Byte)
  | relative (d : Byte)
  | memory (m : Mem)
  deriving DecidableEq, Repr

/-- Where the high byte of an indirect jump's target is read: the same page as the low byte (R171). -/
def samePageNext (ptr : Word) : Word := mkWord (hiByte ptr) (loByte ptr + 1#8)

/-- Resolve a memory mode to its effective address; the operand bytes have been fetched (R165 to R173). -/
def effAddr (m : Mem) (s : State) : Except Refusal (Word × State) :=
  match m with
  | .zp d => .ok (d.setWidth 16, s)
  | .zpx d => .ok ((d + s.x).setWidth 16, s)
  | .zpy d => .ok ((d + s.y).setWidth 16, s)
  | .abs w => .ok (w, s)
  | .abx w => .ok (w + s.x.setWidth 16, s)
  | .aby w => .ok (w + s.y.setWidth 16, s)
  | .ind w => do
    let (lo, s) ← read8 w s
    let (hi, s) ← read8 (samePageNext w) s
    .ok (mkWord hi lo, s)
  | .izx d => read16ZP (d + s.x) s
  | .izy d => do
    let (base, s) ← read16ZP d s
    .ok (base + s.y.setWidth 16, s)

/-- Access class "read" on memory: one read of the effective address, then the operation (R175). -/
def readClass (m : Mem) (f : Byte → State → State) (s : State) : Out :=
  finish do
    let (ea, s) ← effAddr m s
    let (v, s) ← read8 ea s
    .ok (f v s)

/-- Access class "write": one write of the effective address, which is not read first (R175). -/
def writeClass (m : Mem) (v : Byte) (s : State) : Out :=
  finish do
    let (ea, s) ← effAddr m s
    write8 ea v s

/-- Access class "RMW" on memory: one read, one write of the same address, then the flags (R175, R230). -/
def rmwClass (m : Mem) (f : Byte → Byte → Byte × Byte) (s : State) : Out :=
  finish do
    let (ea, s) ← effAddr m s
    let (v, s) ← read8 ea s
    let (r, p) := f v s.p
    let s ← write8 ea r s
    .ok (s.setP p)

/-- Access class "RMW on `A`": no bus access (R163, R175). -/
def rmwA (f : Byte → Byte → Byte × Byte) (s : State) : State :=
  (s.setA (f s.a s.p).1).setP (f s.a s.p).2

/-- The operand of an instruction, as its mode reads it. -/
def operandOf : Instr → Operand
  | .tax => .implied
  | .tay => .implied
  | .txa => .implied
  | .tya => .implied
  | .tsx => .implied
  | .txs => .implied
  | .inx => .implied
  | .iny => .implied
  | .dex => .implied
  | .dey => .implied
  | .rts => .implied
  | .pha => .implied
  | .php => .implied
  | .pla => .implied
  | .plp => .implied
  | .clc => .implied
  | .sec => .implied
  | .cli => .implied
  | .sei => .implied
  | .cld => .implied
  | .sed => .implied
  | .clv => .implied
  | .nop => .implied
  | .brk => .implied
  | .rti => .implied
  | .aslAcc => .accumulator
  | .lsrAcc => .accumulator
  | .rolAcc => .accumulator
  | .rorAcc => .accumulator
  | .ldaImm v => .immediate v
  | .ldxImm v => .immediate v
  | .ldyImm v => .immediate v
  | .adcImm v => .immediate v
  | .sbcImm v => .immediate v
  | .andImm v => .immediate v
  | .oraImm v => .immediate v
  | .eorImm v => .immediate v
  | .cmpImm v => .immediate v
  | .cpxImm v => .immediate v
  | .cpyImm v => .immediate v
  | .ldaZp d => .memory (.zp d)
  | .ldxZp d => .memory (.zp d)
  | .ldyZp d => .memory (.zp d)
  | .staZp d => .memory (.zp d)
  | .stxZp d => .memory (.zp d)
  | .styZp d => .memory (.zp d)
  | .adcZp d => .memory (.zp d)
  | .sbcZp d => .memory (.zp d)
  | .andZp d => .memory (.zp d)
  | .oraZp d => .memory (.zp d)
  | .eorZp d => .memory (.zp d)
  | .bitZp d => .memory (.zp d)
  | .cmpZp d => .memory (.zp d)
  | .cpxZp d => .memory (.zp d)
  | .cpyZp d => .memory (.zp d)
  | .incZp d => .memory (.zp d)
  | .decZp d => .memory (.zp d)
  | .aslZp d => .memory (.zp d)
  | .lsrZp d => .memory (.zp d)
  | .rolZp d => .memory (.zp d)
  | .rorZp d => .memory (.zp d)
  | .ldaZpx d => .memory (.zpx d)
  | .ldyZpx d => .memory (.zpx d)
  | .staZpx d => .memory (.zpx d)
  | .styZpx d => .memory (.zpx d)
  | .adcZpx d => .memory (.zpx d)
  | .sbcZpx d => .memory (.zpx d)
  | .andZpx d => .memory (.zpx d)
  | .oraZpx d => .memory (.zpx d)
  | .eorZpx d => .memory (.zpx d)
  | .cmpZpx d => .memory (.zpx d)
  | .incZpx d => .memory (.zpx d)
  | .decZpx d => .memory (.zpx d)
  | .aslZpx d => .memory (.zpx d)
  | .lsrZpx d => .memory (.zpx d)
  | .rolZpx d => .memory (.zpx d)
  | .rorZpx d => .memory (.zpx d)
  | .ldxZpy d => .memory (.zpy d)
  | .stxZpy d => .memory (.zpy d)
  | .ldaAbs w => .memory (.abs w)
  | .ldxAbs w => .memory (.abs w)
  | .ldyAbs w => .memory (.abs w)
  | .staAbs w => .memory (.abs w)
  | .stxAbs w => .memory (.abs w)
  | .styAbs w => .memory (.abs w)
  | .adcAbs w => .memory (.abs w)
  | .sbcAbs w => .memory (.abs w)
  | .andAbs w => .memory (.abs w)
  | .oraAbs w => .memory (.abs w)
  | .eorAbs w => .memory (.abs w)
  | .bitAbs w => .memory (.abs w)
  | .cmpAbs w => .memory (.abs w)
  | .cpxAbs w => .memory (.abs w)
  | .cpyAbs w => .memory (.abs w)
  | .incAbs w => .memory (.abs w)
  | .decAbs w => .memory (.abs w)
  | .aslAbs w => .memory (.abs w)
  | .lsrAbs w => .memory (.abs w)
  | .rolAbs w => .memory (.abs w)
  | .rorAbs w => .memory (.abs w)
  | .jmpAbs w => .memory (.abs w)
  | .jsr w => .memory (.abs w)
  | .ldaAbx w => .memory (.abx w)
  | .ldyAbx w => .memory (.abx w)
  | .staAbx w => .memory (.abx w)
  | .adcAbx w => .memory (.abx w)
  | .sbcAbx w => .memory (.abx w)
  | .andAbx w => .memory (.abx w)
  | .oraAbx w => .memory (.abx w)
  | .eorAbx w => .memory (.abx w)
  | .cmpAbx w => .memory (.abx w)
  | .incAbx w => .memory (.abx w)
  | .decAbx w => .memory (.abx w)
  | .aslAbx w => .memory (.abx w)
  | .lsrAbx w => .memory (.abx w)
  | .rolAbx w => .memory (.abx w)
  | .rorAbx w => .memory (.abx w)
  | .ldaAby w => .memory (.aby w)
  | .ldxAby w => .memory (.aby w)
  | .staAby w => .memory (.aby w)
  | .adcAby w => .memory (.aby w)
  | .sbcAby w => .memory (.aby w)
  | .andAby w => .memory (.aby w)
  | .oraAby w => .memory (.aby w)
  | .eorAby w => .memory (.aby w)
  | .cmpAby w => .memory (.aby w)
  | .jmpInd w => .memory (.ind w)
  | .ldaIzx d => .memory (.izx d)
  | .staIzx d => .memory (.izx d)
  | .adcIzx d => .memory (.izx d)
  | .sbcIzx d => .memory (.izx d)
  | .andIzx d => .memory (.izx d)
  | .oraIzx d => .memory (.izx d)
  | .eorIzx d => .memory (.izx d)
  | .cmpIzx d => .memory (.izx d)
  | .ldaIzy d => .memory (.izy d)
  | .staIzy d => .memory (.izy d)
  | .adcIzy d => .memory (.izy d)
  | .sbcIzy d => .memory (.izy d)
  | .andIzy d => .memory (.izy d)
  | .oraIzy d => .memory (.izy d)
  | .eorIzy d => .memory (.izy d)
  | .cmpIzy d => .memory (.izy d)
  | .bcc d => .relative d
  | .bcs d => .relative d
  | .beq d => .relative d
  | .bne d => .relative d
  | .bmi d => .relative d
  | .bpl d => .relative d
  | .bvc d => .relative d
  | .bvs d => .relative d

end Sys2Proof.Machine
end

