-- ==== Sys2Proof/Machine/Arithmetic.lean ====
section
/-! DEFINITION. Arithmetic, logic, bit test and compare (`42_arithmetic_logic.md` R200 to R212). -/

namespace Sys2Proof.Machine

/-- `A` and `P` from a result and a new status byte (R200, R201). -/
def setAP (rp : Byte × Byte) (s : State) : State := (s.setA rp.1).setP rp.2

/-- ADC on the operand byte (R200); `P.D` is not looked at (R212). -/
def addOp (m : Byte) (s : State) : State := setAP (adc s.a m s.p) s

/-- SBC on the operand byte (R201); `P.D` is not looked at (R212). -/
def subOp (m : Byte) (s : State) : State := setAP (sbc s.a m s.p) s

/-- AND (R202): `A <- A & M; SetZN(A)`. -/
def andOp (m : Byte) (s : State) : State := setAP (s.a &&& m, setZN (s.a &&& m) s.p) s

/-- ORA (R203): `A <- A | M; SetZN(A)`. -/
def oraOp (m : Byte) (s : State) : State := setAP (s.a ||| m, setZN (s.a ||| m) s.p) s

/-- EOR (R204): `A <- A ^ M; SetZN(A)`. -/
def eorOp (m : Byte) (s : State) : State := setAP (s.a ^^^ m, setZN (s.a ^^^ m) s.p) s

/-- BIT (R205): flags only. -/
def bitOp (m : Byte) (s : State) : State := s.setP (bitTest s.a m s.p)

/-- CMP (R206): `Compare(A, M)`. -/
def cmpOp (m : Byte) (s : State) : State := s.setP (compareFlags s.a m s.p)

/-- CPX (R207): `Compare(X, M)`. -/
def cpxOp (m : Byte) (s : State) : State := s.setP (compareFlags s.x m s.p)

/-- CPY (R208): `Compare(Y, M)`. -/
def cpyOp (m : Byte) (s : State) : State := s.setP (compareFlags s.y m s.p)

/-- 0x69 `ADC #v` (R200, R164). -/
def execAdcImm (v : Byte) (s : State) : Out :=
  .next (addOp v s)

/-- 0x65 `ADC d` (R200, R165). -/
def execAdcZp (d : Byte) (s : State) : Out :=
  readClass (.zp d) addOp s

/-- 0x75 `ADC d,X` (R200, R166). -/
def execAdcZpx (d : Byte) (s : State) : Out :=
  readClass (.zpx d) addOp s

/-- 0x6D `ADC w` (R200, R168). -/
def execAdcAbs (w : Word) (s : State) : Out :=
  readClass (.abs w) addOp s

/-- 0x7D `ADC w,X` (R200, R169). -/
def execAdcAbx (w : Word) (s : State) : Out :=
  readClass (.abx w) addOp s

/-- 0x79 `ADC w,Y` (R200, R170). -/
def execAdcAby (w : Word) (s : State) : Out :=
  readClass (.aby w) addOp s

/-- 0x61 `ADC (d,X)` (R200, R172). -/
def execAdcIzx (d : Byte) (s : State) : Out :=
  readClass (.izx d) addOp s

/-- 0x71 `ADC (d),Y` (R200, R173). -/
def execAdcIzy (d : Byte) (s : State) : Out :=
  readClass (.izy d) addOp s

/-- 0xE9 `SBC #v` (R201, R164). -/
def execSbcImm (v : Byte) (s : State) : Out :=
  .next (subOp v s)

/-- 0xE5 `SBC d` (R201, R165). -/
def execSbcZp (d : Byte) (s : State) : Out :=
  readClass (.zp d) subOp s

/-- 0xF5 `SBC d,X` (R201, R166). -/
def execSbcZpx (d : Byte) (s : State) : Out :=
  readClass (.zpx d) subOp s

/-- 0xED `SBC w` (R201, R168). -/
def execSbcAbs (w : Word) (s : State) : Out :=
  readClass (.abs w) subOp s

/-- 0xFD `SBC w,X` (R201, R169). -/
def execSbcAbx (w : Word) (s : State) : Out :=
  readClass (.abx w) subOp s

/-- 0xF9 `SBC w,Y` (R201, R170). -/
def execSbcAby (w : Word) (s : State) : Out :=
  readClass (.aby w) subOp s

/-- 0xE1 `SBC (d,X)` (R201, R172). -/
def execSbcIzx (d : Byte) (s : State) : Out :=
  readClass (.izx d) subOp s

/-- 0xF1 `SBC (d),Y` (R201, R173). -/
def execSbcIzy (d : Byte) (s : State) : Out :=
  readClass (.izy d) subOp s

/-- 0x29 `AND #v` (R202, R164). -/
def execAndImm (v : Byte) (s : State) : Out :=
  .next (andOp v s)

/-- 0x25 `AND d` (R202, R165). -/
def execAndZp (d : Byte) (s : State) : Out :=
  readClass (.zp d) andOp s

/-- 0x35 `AND d,X` (R202, R166). -/
def execAndZpx (d : Byte) (s : State) : Out :=
  readClass (.zpx d) andOp s

/-- 0x2D `AND w` (R202, R168). -/
def execAndAbs (w : Word) (s : State) : Out :=
  readClass (.abs w) andOp s

/-- 0x3D `AND w,X` (R202, R169). -/
def execAndAbx (w : Word) (s : State) : Out :=
  readClass (.abx w) andOp s

/-- 0x39 `AND w,Y` (R202, R170). -/
def execAndAby (w : Word) (s : State) : Out :=
  readClass (.aby w) andOp s

/-- 0x21 `AND (d,X)` (R202, R172). -/
def execAndIzx (d : Byte) (s : State) : Out :=
  readClass (.izx d) andOp s

/-- 0x31 `AND (d),Y` (R202, R173). -/
def execAndIzy (d : Byte) (s : State) : Out :=
  readClass (.izy d) andOp s

/-- 0x09 `ORA #v` (R203, R164). -/
def execOraImm (v : Byte) (s : State) : Out :=
  .next (oraOp v s)

/-- 0x05 `ORA d` (R203, R165). -/
def execOraZp (d : Byte) (s : State) : Out :=
  readClass (.zp d) oraOp s

/-- 0x15 `ORA d,X` (R203, R166). -/
def execOraZpx (d : Byte) (s : State) : Out :=
  readClass (.zpx d) oraOp s

/-- 0x0D `ORA w` (R203, R168). -/
def execOraAbs (w : Word) (s : State) : Out :=
  readClass (.abs w) oraOp s

/-- 0x1D `ORA w,X` (R203, R169). -/
def execOraAbx (w : Word) (s : State) : Out :=
  readClass (.abx w) oraOp s

/-- 0x19 `ORA w,Y` (R203, R170). -/
def execOraAby (w : Word) (s : State) : Out :=
  readClass (.aby w) oraOp s

/-- 0x01 `ORA (d,X)` (R203, R172). -/
def execOraIzx (d : Byte) (s : State) : Out :=
  readClass (.izx d) oraOp s

/-- 0x11 `ORA (d),Y` (R203, R173). -/
def execOraIzy (d : Byte) (s : State) : Out :=
  readClass (.izy d) oraOp s

/-- 0x49 `EOR #v` (R204, R164). -/
def execEorImm (v : Byte) (s : State) : Out :=
  .next (eorOp v s)

/-- 0x45 `EOR d` (R204, R165). -/
def execEorZp (d : Byte) (s : State) : Out :=
  readClass (.zp d) eorOp s

/-- 0x55 `EOR d,X` (R204, R166). -/
def execEorZpx (d : Byte) (s : State) : Out :=
  readClass (.zpx d) eorOp s

/-- 0x4D `EOR w` (R204, R168). -/
def execEorAbs (w : Word) (s : State) : Out :=
  readClass (.abs w) eorOp s

/-- 0x5D `EOR w,X` (R204, R169). -/
def execEorAbx (w : Word) (s : State) : Out :=
  readClass (.abx w) eorOp s

/-- 0x59 `EOR w,Y` (R204, R170). -/
def execEorAby (w : Word) (s : State) : Out :=
  readClass (.aby w) eorOp s

/-- 0x41 `EOR (d,X)` (R204, R172). -/
def execEorIzx (d : Byte) (s : State) : Out :=
  readClass (.izx d) eorOp s

/-- 0x51 `EOR (d),Y` (R204, R173). -/
def execEorIzy (d : Byte) (s : State) : Out :=
  readClass (.izy d) eorOp s

/-- 0x24 `BIT d` (R205, R165). -/
def execBitZp (d : Byte) (s : State) : Out :=
  readClass (.zp d) bitOp s

/-- 0x2C `BIT w` (R205, R168). -/
def execBitAbs (w : Word) (s : State) : Out :=
  readClass (.abs w) bitOp s

/-- 0xC9 `CMP #v` (R206, R164). -/
def execCmpImm (v : Byte) (s : State) : Out :=
  .next (cmpOp v s)

/-- 0xC5 `CMP d` (R206, R165). -/
def execCmpZp (d : Byte) (s : State) : Out :=
  readClass (.zp d) cmpOp s

/-- 0xD5 `CMP d,X` (R206, R166). -/
def execCmpZpx (d : Byte) (s : State) : Out :=
  readClass (.zpx d) cmpOp s

/-- 0xCD `CMP w` (R206, R168). -/
def execCmpAbs (w : Word) (s : State) : Out :=
  readClass (.abs w) cmpOp s

/-- 0xDD `CMP w,X` (R206, R169). -/
def execCmpAbx (w : Word) (s : State) : Out :=
  readClass (.abx w) cmpOp s

/-- 0xD9 `CMP w,Y` (R206, R170). -/
def execCmpAby (w : Word) (s : State) : Out :=
  readClass (.aby w) cmpOp s

/-- 0xC1 `CMP (d,X)` (R206, R172). -/
def execCmpIzx (d : Byte) (s : State) : Out :=
  readClass (.izx d) cmpOp s

/-- 0xD1 `CMP (d),Y` (R206, R173). -/
def execCmpIzy (d : Byte) (s : State) : Out :=
  readClass (.izy d) cmpOp s

/-- 0xE0 `CPX #v` (R207, R164). -/
def execCpxImm (v : Byte) (s : State) : Out :=
  .next (cpxOp v s)

/-- 0xE4 `CPX d` (R207, R165). -/
def execCpxZp (d : Byte) (s : State) : Out :=
  readClass (.zp d) cpxOp s

/-- 0xEC `CPX w` (R207, R168). -/
def execCpxAbs (w : Word) (s : State) : Out :=
  readClass (.abs w) cpxOp s

/-- 0xC0 `CPY #v` (R208, R164). -/
def execCpyImm (v : Byte) (s : State) : Out :=
  .next (cpyOp v s)

/-- 0xC4 `CPY d` (R208, R165). -/
def execCpyZp (d : Byte) (s : State) : Out :=
  readClass (.zp d) cpyOp s

/-- 0xCC `CPY w` (R208, R168). -/
def execCpyAbs (w : Word) (s : State) : Out :=
  readClass (.abs w) cpyOp s

end Sys2Proof.Machine
end

