-- ==== Sys2Proof/Machine/Control.lean ====
section
/-! DEFINITION. Jumps, subroutines and branches (`44_control_flow.md` R240 to R252). -/

namespace Sys2Proof.Machine

/-- `Branch(cond)` (R251, R174): the displacement byte is sign-extended and added to the `PC` that already
points past the branch; an untaken branch changes nothing more. -/
def branch (cond : Bool) (d : Byte) (s : State) : State :=
  if cond then s.setPc (s.pc + d.signExtend 16) else s

/-- `PC <- EA` of an address mode (R240). -/
def jumpTo (m : Mem) (s : State) : Out :=
  finish do
    let (ea, s) ← effAddr m s
    .ok (s.setPc ea)

/-- JSR (R241): push the address of the call's last byte, high byte first, then go to the target, whose bytes
were read before either push. -/
def callSub (target : Word) (s : State) : Out :=
  finish do
    let ret := s.pc - 1#16
    let s ← push (hiByte ret) s
    let s ← push (loByte ret) s
    .ok (s.setPc target)

/-- RTS (R242): pull low, then high, and go one past it. -/
def returnSub (s : State) : Out :=
  finish do
    let (lo, s) ← pop s
    let (hi, s) ← pop s
    .ok (s.setPc (mkWord hi lo + 1#16))

/-- 0x4C `JMP w` (R240, R168). -/
def execJmpAbs (w : Word) (s : State) : Out :=
  jumpTo (.abs w) s

/-- 0x6C `JMP (w)` (R240, R171). -/
def execJmpInd (w : Word) (s : State) : Out :=
  jumpTo (.ind w) s

/-- 0x20 `JSR w` (R241, R168). -/
def execJsr (w : Word) (s : State) : Out :=
  callSub w s

/-- 0x60 `RTS` (R242, R162). -/
def execRts (s : State) : Out :=
  returnSub s

/-- 0x90 `BCC d` (R243, R174). -/
def execBcc (d : Byte) (s : State) : Out :=
  .next (branch (!getC s.p) d s)

/-- 0xB0 `BCS d` (R244, R174). -/
def execBcs (d : Byte) (s : State) : Out :=
  .next (branch (getC s.p) d s)

/-- 0xF0 `BEQ d` (R245, R174). -/
def execBeq (d : Byte) (s : State) : Out :=
  .next (branch (getZ s.p) d s)

/-- 0xD0 `BNE d` (R246, R174). -/
def execBne (d : Byte) (s : State) : Out :=
  .next (branch (!getZ s.p) d s)

/-- 0x30 `BMI d` (R247, R174). -/
def execBmi (d : Byte) (s : State) : Out :=
  .next (branch (getN s.p) d s)

/-- 0x10 `BPL d` (R248, R174). -/
def execBpl (d : Byte) (s : State) : Out :=
  .next (branch (!getN s.p) d s)

/-- 0x50 `BVC d` (R249, R174). -/
def execBvc (d : Byte) (s : State) : Out :=
  .next (branch (!getV s.p) d s)

/-- 0x70 `BVS d` (R250, R174). -/
def execBvs (d : Byte) (s : State) : Out :=
  .next (branch (getV s.p) d s)

end Sys2Proof.Machine
end

