-- ==== Sys2Proof/Machine/IncShift.lean ====
section
/-! DEFINITION. Increments, decrements, shifts and rotates (`43_incdec_shift.md` R220 to R230). -/

namespace Sys2Proof.Machine

/-- `X <- v; P <- p` of a register increment or decrement (R222, R224). -/
def setXP (rp : Byte × Byte) (s : State) : State := (s.setX rp.1).setP rp.2

/-- `Y <- v; P <- p` of a register increment or decrement (R223, R225). -/
def setYP (rp : Byte × Byte) (s : State) : State := (s.setY rp.1).setP rp.2

/-- 0xE6 `INC d` (R220, R165). -/
def execIncZp (d : Byte) (s : State) : Out :=
  rmwClass (.zp d) inc s

/-- 0xF6 `INC d,X` (R220, R166). -/
def execIncZpx (d : Byte) (s : State) : Out :=
  rmwClass (.zpx d) inc s

/-- 0xEE `INC w` (R220, R168). -/
def execIncAbs (w : Word) (s : State) : Out :=
  rmwClass (.abs w) inc s

/-- 0xFE `INC w,X` (R220, R169). -/
def execIncAbx (w : Word) (s : State) : Out :=
  rmwClass (.abx w) inc s

/-- 0xC6 `DEC d` (R221, R165). -/
def execDecZp (d : Byte) (s : State) : Out :=
  rmwClass (.zp d) dec s

/-- 0xD6 `DEC d,X` (R221, R166). -/
def execDecZpx (d : Byte) (s : State) : Out :=
  rmwClass (.zpx d) dec s

/-- 0xCE `DEC w` (R221, R168). -/
def execDecAbs (w : Word) (s : State) : Out :=
  rmwClass (.abs w) dec s

/-- 0xDE `DEC w,X` (R221, R169). -/
def execDecAbx (w : Word) (s : State) : Out :=
  rmwClass (.abx w) dec s

/-- 0xE8 `INX` (R222, R162). -/
def execInx (s : State) : Out :=
  .next (setXP (inc s.x s.p) s)

/-- 0xC8 `INY` (R223, R162). -/
def execIny (s : State) : Out :=
  .next (setYP (inc s.y s.p) s)

/-- 0xCA `DEX` (R224, R162). -/
def execDex (s : State) : Out :=
  .next (setXP (dec s.x s.p) s)

/-- 0x88 `DEY` (R225, R162). -/
def execDey (s : State) : Out :=
  .next (setYP (dec s.y s.p) s)

/-- 0x0A `ASL A` (R226, R163). -/
def execAslAcc (s : State) : Out :=
  .next (rmwA asl s)

/-- 0x06 `ASL d` (R226, R165). -/
def execAslZp (d : Byte) (s : State) : Out :=
  rmwClass (.zp d) asl s

/-- 0x16 `ASL d,X` (R226, R166). -/
def execAslZpx (d : Byte) (s : State) : Out :=
  rmwClass (.zpx d) asl s

/-- 0x0E `ASL w` (R226, R168). -/
def execAslAbs (w : Word) (s : State) : Out :=
  rmwClass (.abs w) asl s

/-- 0x1E `ASL w,X` (R226, R169). -/
def execAslAbx (w : Word) (s : State) : Out :=
  rmwClass (.abx w) asl s

/-- 0x4A `LSR A` (R227, R163). -/
def execLsrAcc (s : State) : Out :=
  .next (rmwA lsr s)

/-- 0x46 `LSR d` (R227, R165). -/
def execLsrZp (d : Byte) (s : State) : Out :=
  rmwClass (.zp d) lsr s

/-- 0x56 `LSR d,X` (R227, R166). -/
def execLsrZpx (d : Byte) (s : State) : Out :=
  rmwClass (.zpx d) lsr s

/-- 0x4E `LSR w` (R227, R168). -/
def execLsrAbs (w : Word) (s : State) : Out :=
  rmwClass (.abs w) lsr s

/-- 0x5E `LSR w,X` (R227, R169). -/
def execLsrAbx (w : Word) (s : State) : Out :=
  rmwClass (.abx w) lsr s

/-- 0x2A `ROL A` (R228, R163). -/
def execRolAcc (s : State) : Out :=
  .next (rmwA rol s)

/-- 0x26 `ROL d` (R228, R165). -/
def execRolZp (d : Byte) (s : State) : Out :=
  rmwClass (.zp d) rol s

/-- 0x36 `ROL d,X` (R228, R166). -/
def execRolZpx (d : Byte) (s : State) : Out :=
  rmwClass (.zpx d) rol s

/-- 0x2E `ROL w` (R228, R168). -/
def execRolAbs (w : Word) (s : State) : Out :=
  rmwClass (.abs w) rol s

/-- 0x3E `ROL w,X` (R228, R169). -/
def execRolAbx (w : Word) (s : State) : Out :=
  rmwClass (.abx w) rol s

/-- 0x6A `ROR A` (R229, R163). -/
def execRorAcc (s : State) : Out :=
  .next (rmwA ror s)

/-- 0x66 `ROR d` (R229, R165). -/
def execRorZp (d : Byte) (s : State) : Out :=
  rmwClass (.zp d) ror s

/-- 0x76 `ROR d,X` (R229, R166). -/
def execRorZpx (d : Byte) (s : State) : Out :=
  rmwClass (.zpx d) ror s

/-- 0x6E `ROR w` (R229, R168). -/
def execRorAbs (w : Word) (s : State) : Out :=
  rmwClass (.abs w) ror s

/-- 0x7E `ROR w,X` (R229, R169). -/
def execRorAbx (w : Word) (s : State) : Out :=
  rmwClass (.abx w) ror s

end Sys2Proof.Machine
end

