-- ==== Sys2Proof/Machine/LoadStore.lean ====
section
/-! DEFINITION. Loads, stores and register transfers (`41_load_store_transfer.md` R180 to R191). -/

namespace Sys2Proof.Machine

/-- Put a byte into `A` and set Z and N from it: `A <- v; SetZN(A)` (R180, R188, R189, R262). -/
def loadA (v : Byte) (s : State) : State := (s.setA v).setP (setZN v s.p)

/-- `X <- v; SetZN(X)` (R181, R186, R190). -/
def loadX (v : Byte) (s : State) : State := (s.setX v).setP (setZN v s.p)

/-- `Y <- v; SetZN(Y)` (R182, R187). -/
def loadY (v : Byte) (s : State) : State := (s.setY v).setP (setZN v s.p)

/-- 0xA9 `LDA #v` (R180, R164). -/
def execLdaImm (v : Byte) (s : State) : Out :=
  .next (loadA v s)

/-- 0xA5 `LDA d` (R180, R165). -/
def execLdaZp (d : Byte) (s : State) : Out :=
  readClass (.zp d) loadA s

/-- 0xB5 `LDA d,X` (R180, R166). -/
def execLdaZpx (d : Byte) (s : State) : Out :=
  readClass (.zpx d) loadA s

/-- 0xAD `LDA w` (R180, R168). -/
def execLdaAbs (w : Word) (s : State) : Out :=
  readClass (.abs w) loadA s

/-- 0xBD `LDA w,X` (R180, R169). -/
def execLdaAbx (w : Word) (s : State) : Out :=
  readClass (.abx w) loadA s

/-- 0xB9 `LDA w,Y` (R180, R170). -/
def execLdaAby (w : Word) (s : State) : Out :=
  readClass (.aby w) loadA s

/-- 0xA1 `LDA (d,X)` (R180, R172). -/
def execLdaIzx (d : Byte) (s : State) : Out :=
  readClass (.izx d) loadA s

/-- 0xB1 `LDA (d),Y` (R180, R173). -/
def execLdaIzy (d : Byte) (s : State) : Out :=
  readClass (.izy d) loadA s

/-- 0xA2 `LDX #v` (R181, R164). -/
def execLdxImm (v : Byte) (s : State) : Out :=
  .next (loadX v s)

/-- 0xA6 `LDX d` (R181, R165). -/
def execLdxZp (d : Byte) (s : State) : Out :=
  readClass (.zp d) loadX s

/-- 0xB6 `LDX d,Y` (R181, R167). -/
def execLdxZpy (d : Byte) (s : State) : Out :=
  readClass (.zpy d) loadX s

/-- 0xAE `LDX w` (R181, R168). -/
def execLdxAbs (w : Word) (s : State) : Out :=
  readClass (.abs w) loadX s

/-- 0xBE `LDX w,Y` (R181, R170). -/
def execLdxAby (w : Word) (s : State) : Out :=
  readClass (.aby w) loadX s

/-- 0xA0 `LDY #v` (R182, R164). -/
def execLdyImm (v : Byte) (s : State) : Out :=
  .next (loadY v s)

/-- 0xA4 `LDY d` (R182, R165). -/
def execLdyZp (d : Byte) (s : State) : Out :=
  readClass (.zp d) loadY s

/-- 0xB4 `LDY d,X` (R182, R166). -/
def execLdyZpx (d : Byte) (s : State) : Out :=
  readClass (.zpx d) loadY s

/-- 0xAC `LDY w` (R182, R168). -/
def execLdyAbs (w : Word) (s : State) : Out :=
  readClass (.abs w) loadY s

/-- 0xBC `LDY w,X` (R182, R169). -/
def execLdyAbx (w : Word) (s : State) : Out :=
  readClass (.abx w) loadY s

/-- 0x85 `STA d` (R183, R165). -/
def execStaZp (d : Byte) (s : State) : Out :=
  writeClass (.zp d) s.a s

/-- 0x95 `STA d,X` (R183, R166). -/
def execStaZpx (d : Byte) (s : State) : Out :=
  writeClass (.zpx d) s.a s

/-- 0x8D `STA w` (R183, R168). -/
def execStaAbs (w : Word) (s : State) : Out :=
  writeClass (.abs w) s.a s

/-- 0x9D `STA w,X` (R183, R169). -/
def execStaAbx (w : Word) (s : State) : Out :=
  writeClass (.abx w) s.a s

/-- 0x99 `STA w,Y` (R183, R170). -/
def execStaAby (w : Word) (s : State) : Out :=
  writeClass (.aby w) s.a s

/-- 0x81 `STA (d,X)` (R183, R172). -/
def execStaIzx (d : Byte) (s : State) : Out :=
  writeClass (.izx d) s.a s

/-- 0x91 `STA (d),Y` (R183, R173). -/
def execStaIzy (d : Byte) (s : State) : Out :=
  writeClass (.izy d) s.a s

/-- 0x86 `STX d` (R184, R165). -/
def execStxZp (d : Byte) (s : State) : Out :=
  writeClass (.zp d) s.x s

/-- 0x96 `STX d,Y` (R184, R167). -/
def execStxZpy (d : Byte) (s : State) : Out :=
  writeClass (.zpy d) s.x s

/-- 0x8E `STX w` (R184, R168). -/
def execStxAbs (w : Word) (s : State) : Out :=
  writeClass (.abs w) s.x s

/-- 0x84 `STY d` (R185, R165). -/
def execStyZp (d : Byte) (s : State) : Out :=
  writeClass (.zp d) s.y s

/-- 0x94 `STY d,X` (R185, R166). -/
def execStyZpx (d : Byte) (s : State) : Out :=
  writeClass (.zpx d) s.y s

/-- 0x8C `STY w` (R185, R168). -/
def execStyAbs (w : Word) (s : State) : Out :=
  writeClass (.abs w) s.y s

/-- 0xAA `TAX` (R186, R162). -/
def execTax (s : State) : Out :=
  .next (loadX s.a s)

/-- 0xA8 `TAY` (R187, R162). -/
def execTay (s : State) : Out :=
  .next (loadY s.a s)

/-- 0x8A `TXA` (R188, R162). -/
def execTxa (s : State) : Out :=
  .next (loadA s.x s)

/-- 0x98 `TYA` (R189, R162). -/
def execTya (s : State) : Out :=
  .next (loadA s.y s)

/-- 0xBA `TSX` (R190, R162). -/
def execTsx (s : State) : Out :=
  .next (loadX s.sp s)

/-- 0x9A `TXS` (R191, R162). -/
def execTxs (s : State) : Out :=
  .next (s.setSp s.x)

end Sys2Proof.Machine
end

