-- ==== Sys2Proof/Machine/System.lean ====
section
/-! DEFINITION. Stack, flag and system instructions (`45_stack_flags_system.md` R260 to R273). -/

namespace Sys2Proof.Machine

/-- PHA and PHP: one push (R260, R261). -/
def pushByte (v : Byte) (s : State) : Out := finish (push v s)

/-- PLA and PLP: one pull, then what is done with the byte (R262, R263). -/
def pullByte (f : Byte → State → State) (s : State) : Out :=
  finish do
    let (v, s) ← pop s
    .ok (f v s)

/-- 0x48 `PHA` (R260, R162). -/
def execPha (s : State) : Out :=
  pushByte s.a s

/-- 0x08 `PHP` (R261, R162). -/
def execPhp (s : State) : Out :=
  pushByte (s.p ||| breakUnused) s

/-- 0x68 `PLA` (R262, R162). -/
def execPla (s : State) : Out :=
  pullByte loadA s

/-- 0x28 `PLP` (R263, R162). -/
def execPlp (s : State) : Out :=
  pullByte (fun v t => t.setP (mergeStatus t.p v)) s

/-- 0x18 `CLC` (R264, R162). -/
def execClc (s : State) : Out :=
  .next (s.setP (setC false s.p))

/-- 0x38 `SEC` (R265, R162). -/
def execSec (s : State) : Out :=
  .next (s.setP (setC true s.p))

/-- 0x58 `CLI` (R266, R162). -/
def execCli (s : State) : Out :=
  .next (s.setP (setI false s.p))

/-- 0x78 `SEI` (R267, R162). -/
def execSei (s : State) : Out :=
  .next (s.setP (setI true s.p))

/-- 0xD8 `CLD` (R268, R162). -/
def execCld (s : State) : Out :=
  .next (s.setP (setD false s.p))

/-- 0xF8 `SED` (R269, R162). -/
def execSed (s : State) : Out :=
  .next (s.setP (setD true s.p))

/-- 0xB8 `CLV` (R270, R162). -/
def execClv (s : State) : Out :=
  .next (s.setP (setV false s.p))

/-- 0xEA `NOP` (R271, R162). -/
def execNop (s : State) : Out :=
  .next s

/-- 0x00 `BRK` (R272, R162). -/
def execBrk (s : State) : Out :=
  finish (enterHandler (s.pc + 1#16) (s.p ||| breakUnused) (setI true s.p) Config.vecBrk s)

/-- 0x40 `RTI` (R273, R162). -/
def execRti (s : State) : Out :=
  finish (returnFromHandler s)

end Sys2Proof.Machine
end

