-- ==== Sys2Proof/Machine/Fetch.lean ====
section
/-! DEFINITION. Fetching an instruction through the bus (`30_encoding.md` R133, `60_exceptions.md` R310), and
placing one where it is fetched. -/

namespace Sys2Proof.Machine

/-- What a fetch gives. -/
inductive Fetched where
  /-- An instruction, and the state with `PC` past its last byte (`10_state.md` R22). -/
  | instr (i : Instr) (s : State)
  /-- A byte with no row in the table, and the state with `PC` past that byte (R300). -/
  | illegal (b : Byte) (s : State)
  /-- A byte of the instruction lies where a bus read is refused. -/
  | refused (r : Refusal)

/-- Read the operand bytes an opcode asks for (R133). -/
def fetchOperand (shape : Shape) (s : State) : Fetched :=
  match shape with
  | .one i => .instr i s
  | .two f =>
    match fetch8 s with
    | .ok (d, s) => .instr (f d) s
    | .error r => .refused r
  | .three f =>
    match fetch16 s with
    | .ok (w, s) => .instr (f w) s
    | .error r => .refused r

/-- Fetch the opcode byte, look it up, read its operand bytes (R133, R310). -/
def fetchInstr (s : State) : Fetched :=
  match fetch8 s with
  | .error r => .refused r
  | .ok (b, s) =>
    match lookup b with
    | none => .illegal b s
    | some row => fetchOperand row.shape s

/-- Put a byte into the storage behind a CPU address, as a loader from outside does; where there is none,
nothing. -/
def State.place (s : State) (a : Word) (b : Byte) : State :=
  match regionOf a with
  | .prgHi => s.setPrgHi (s.prgHi.write (a.toNat - Config.prgHiBase) b)
  | .prgLo => s.setPrgLo (s.prgLo.write (a.toNat - Config.prgLoBase) b)
  | .ram => if a.toNat < Config.ramSize then s.setRam (s.ram.write a.toNat b) else s
  | .io => s
  | .expansion => s

/-- Place bytes at consecutive CPU addresses. -/
def State.placeBytes (s : State) (a : Word) : List Byte → State
  | [] => s
  | b :: bs => (s.place a b).placeBytes (a + 1#16) bs

/-- Where the next step fetches its opcode: `PC`, or the NMI vector's word when the NMI is taken (R310). -/
def fetchAddr (s : State) : Word :=
  if nmiTaken s then mkWord (s.prgHi.read 0x3FFB) (s.prgHi.read 0x3FFA) else s.pc

/-- A byte placed at `a` is what the next step fetches there: there is storage, and an NMI entry of that step
neither pushes over it nor takes it for its vector. -/
def placeable (s : State) (a : Word) : Bool :=
  let stored := decide (a.toNat < Config.ramSize) || decide (Config.prgLoBase ≤ a.toNat)
  let inStack := decide (0x0100 ≤ a.toNat ∧ a.toNat ≤ 0x01FF)
  let inVector := decide (a = 0xFFFA#16 ∨ a = 0xFFFB#16)
  stored && !(nmiTaken s && (inStack || inVector))

/-- Make the next step fetch at address 0x0000, which is RAM: by `PC`, or by the NMI vector when the NMI is
taken. -/
def State.fetchFromZero (s : State) : State :=
  if nmiTaken s then s.setPrgHi ((s.prgHi.write 0x3FFA 0x00#8).write 0x3FFB 0x00#8) else s.setPc 0x0000#16

/-- The state whose next step fetches from an address where an instruction can be placed: the state itself
where that is so. -/
def State.fetchable (s : State) : State :=
  let a := fetchAddr s
  if placeable s a && placeable s (a + 1#16) && placeable s (a + 2#16) then s else s.fetchFromZero

end Sys2Proof.Machine
end

