-- ==== Sys2Proof/Machine/Step.lean ====
section
/-! DEFINITION. One step (`60_exceptions.md` R310). -/

namespace Sys2Proof.Machine

/-- Fetch one instruction and execute it; an unrecognised byte is the machine's one error (R300). -/
def fetchAndExec (s : State) : Host.Outcome State Fault Refusal :=
  match fetchInstr s with
  | .instr i s => exec i s
  | .illegal b s => .fault (.illegalOpcode b s)
  | .refused r => .refused r

/-- A step: the NMI test, then one instruction, the handler's first when the NMI was taken (R310, D8). -/
def step (s : State) : Host.Outcome State Fault Refusal :=
  match nmiPrelude s with
  | .ok s => fetchAndExec s
  | .error r => .refused r

/-- `s` with an opcode-table word stored where `step` fetches its next instruction (log entry 8). -/
def State.withFetchWord (s : State) (nbits w : Nat) : State :=
  s.fetchable.placeBytes (fetchAddr s.fetchable) (tableBytes nbits w)

end Sys2Proof.Machine
end

