-- ==== Sys2Proof/Machine/Assembler.lean ====
section
/-! DEFINITION. The assembler text of an instruction (`30_encoding.md` R150), as ND's disassembler contract renders
it. It reads no state but the address the instruction stands at. -/

namespace Sys2Proof.Machine

/-- One upper-case hexadecimal digit. -/
def hexDigit (n : Nat) : Char := ("0123456789ABCDEF".toList.getD n '0')

/-- Two hexadecimal digits of a byte. -/
def hexByte (b : Byte) : String := String.ofList [hexDigit (b.toNat / 16), hexDigit (b.toNat % 16)]

/-- Four hexadecimal digits of a word, high byte first. -/
def hexWord (w : Word) : String := hexByte (hiByte w) ++ hexByte (loByte w)

/-- The three letters of a mnemonic. -/
def mnemonicText (m : Mnemonic) : String :=
  match m with
  | .ADC => "ADC"
  | .AND => "AND"
  | .ASL => "ASL"
  | .BCC => "BCC"
  | .BCS => "BCS"
  | .BEQ => "BEQ"
  | .BIT => "BIT"
  | .BMI => "BMI"
  | .BNE => "BNE"
  | .BPL => "BPL"
  | .BRK => "BRK"
  | .BVC => "BVC"
  | .BVS => "BVS"
  | .CLC => "CLC"
  | .CLD => "CLD"
  | .CLI => "CLI"
  | .CLV => "CLV"
  | .CMP => "CMP"
  | .CPX => "CPX"
  | .CPY => "CPY"
  | .DEC => "DEC"
  | .DEX => "DEX"
  | .DEY => "DEY"
  | .EOR => "EOR"
  | .INC => "INC"
  | .INX => "INX"
  | .INY => "INY"
  | .JMP => "JMP"
  | .JSR => "JSR"
  | .LDA => "LDA"
  | .LDX => "LDX"
  | .LDY => "LDY"
  | .LSR => "LSR"
  | .NOP => "NOP"
  | .ORA => "ORA"
  | .PHA => "PHA"
  | .PHP => "PHP"
  | .PLA => "PLA"
  | .PLP => "PLP"
  | .ROL => "ROL"
  | .ROR => "ROR"
  | .RTI => "RTI"
  | .RTS => "RTS"
  | .SBC => "SBC"
  | .SEC => "SEC"
  | .SED => "SED"
  | .SEI => "SEI"
  | .STA => "STA"
  | .STX => "STX"
  | .STY => "STY"
  | .TAX => "TAX"
  | .TAY => "TAY"
  | .TSX => "TSX"
  | .TXA => "TXA"
  | .TXS => "TXS"
  | .TYA => "TYA"

/-- The operand as R150 writes it; `pc` is the address of the opcode byte, which a relative operand is
counted from. -/
def operandText (pc : Word) (o : Operand) : String :=
  match o with
  | .implied => ""
  | .accumulator => " A"
  | .immediate v => " #$" ++ hexByte v
  | .relative d => " $" ++ hexWord (pc + 2#16 + d.signExtend 16)
  | .memory (.zp d) => " $" ++ hexByte d
  | .memory (.zpx d) => " $" ++ hexByte d ++ ",X"
  | .memory (.zpy d) => " $" ++ hexByte d ++ ",Y"
  | .memory (.abs w) => " $" ++ hexWord w
  | .memory (.abx w) => " $" ++ hexWord w ++ ",X"
  | .memory (.aby w) => " $" ++ hexWord w ++ ",Y"
  | .memory (.ind w) => " ($" ++ hexWord w ++ ")"
  | .memory (.izx d) => " ($" ++ hexByte d ++ ",X)"
  | .memory (.izy d) => " ($" ++ hexByte d ++ "),Y"

/-- An instruction's text (R150). -/
def asmText (pc : Word) (i : Instr) : String := mnemonicText i.mnemonic ++ operandText pc (operandOf i)

end Sys2Proof.Machine
end

