-- ==== Sys2Proof/Machine/HostOps.lean ====
section
/-! DEFINITION. The host's operations (`60_exceptions.md` section 5, `70_reset_and_hazards.md` R342). All act between
steps (`20_memory.md` R124). Construction is `State.Launch` in `Safety.lean`. -/

namespace Sys2Proof.Machine

/-- `count` bytes of a ROM image from an offset on. -/
def romBlock (img : List Byte) (start count : Nat) : List Byte := (img.drop start).take count

/-- The arrays a ROM load writes, directly and not through the bus: both PRG banks get the same 16 KiB
(R342, R345). -/
def loadRomArrays (img : List Byte) (s : State) : State :=
  let prg := Memory.ofBytes 0 (romBlock img Config.romHeaderSize Config.prgBankSize)
  let chr0 := Memory.ofBytes 0 (romBlock img 0x4010 Config.ptSize)
  let chr1 := Memory.ofBytes 0 (romBlock img 0x5010 Config.ptSize)
  (((s.setPrgLo prg).setPrgHi prg).setPt0 chr0).setPt1 chr1

/-- `HostLoadRom(img)` (R342, R343): the arrays, then `PC` from the reset vector through the bus. -/
def hostLoadRom (img : List Byte) (s : State) : Except Refusal State :=
  if romImageWellFormed img then do
    let (target, s) ← read16 Config.vecReset (loadRomArrays img s)
    .ok (s.setPc target)
  else .error .romImageTooShort

/-- `HostSetNmi()` (R320). -/
def hostSetNmi (s : State) : State := s.setNmiPending true

/-- `HostSetStatus(v)` (R321, D20). -/
def hostSetStatus (v : Byte) (s : State) : State := s.setPpustatus v

/-- `HostRead(a)`: the bus read itself, with its side effects (R322, D20). -/
def hostRead (a : Word) (s : State) : Except Refusal (Byte × State) := read8 a s

/-- `HostWrite(a, v)`: the bus write itself, with its side effects (R322, D20). -/
def hostWrite (a : Word) (v : Byte) (s : State) : Except Refusal State := write8 a v s

/-- One thing the host does to a constructed machine. -/
inductive HostOp where
  | step
  | loadRom (img : List Byte)
  | setNmi
  | setStatus (v : Byte)
  | read (a : Word)
  | write (a : Word) (v : Byte)
  deriving DecidableEq, Repr

/-- The state change of a host operation. A snapshot (R323) is no operation: it changes nothing. -/
def hostApply (op : HostOp) (s : State) : Out :=
  match op with
  | .step => Sys2Proof.Machine.step s
  | .loadRom img => finish (hostLoadRom img s)
  | .setNmi => .next (hostSetNmi s)
  | .setStatus v => .next (hostSetStatus v s)
  | .read a => finish ((hostRead a s).map (fun r => r.2))
  | .write a v => finish (hostWrite a v s)

/-- The arrays a snapshot can show (R323). -/
inductive SnapArray where
  | ram | prgLo | prgHi | oam | pt0 | pt1 | nt | pal
  deriving DecidableEq, Repr

/-- How many bytes an array holds (`10_state.md` R40, R47, R48). -/
def snapSize : SnapArray → Nat
  | .ram => Config.ramSize
  | .prgLo => Config.prgBankSize
  | .prgHi => Config.prgBankSize
  | .oam => Config.oamSize
  | .pt0 => Config.ptSize
  | .pt1 => Config.ptSize
  | .nt => Config.ntSize
  | .pal => Config.palSize

/-- The contents of an array. -/
def snapMemory (s : State) : SnapArray → Memory
  | .ram => s.ram
  | .prgLo => s.prgLo
  | .prgHi => s.prgHi
  | .oam => s.oam
  | .pt0 => s.pt0
  | .pt1 => s.pt1
  | .nt => s.nt
  | .pal => s.pal

/-- A snapshot of a window (R323): the `n` bytes of an array from offset `base` on. DESIGN CHOICE, safe (log entry
18): R323 gives a window no bound, and here one that runs past the end of its array has no contents, as `PMemRead`
has none there (`20_memory.md` R110, R113). -/
def snapshotWindow (arr : SnapArray) (base n : Nat) (s : State) : Option (List Byte) :=
  if base + n ≤ snapSize arr then some ((List.range n).map fun i => (snapMemory s arr).read (base + i)) else none

end Sys2Proof.Machine
end

