-- ==== Sys2Proof/Safety.lean ====
section
/-! DEFINITION. What claims are stated in terms of: the states construction can give, the states a run can reach,
the invariant of the machine's data, and a safe run. -/

namespace Sys2Proof.Machine

/-- The Picture-Memory addresses that exist (`20_memory.md` R113). -/
abbrev PictureMemoryExists (p : Word) : Prop := p.toNat ≤ 0x2FFF ∨ (0x3F00 ≤ p.toNat ∧ p.toNat ≤ 0x3FFF)

/-- The writes the bus takes: not into the hole (R81), the data port only while the VRAM pointer is at an address
that exists (R95, R113), sprite DMA only from a page of RAM (R96). -/
abbrev WriteAccepted (a : Word) (v : Byte) (s : State) : Prop :=
  ¬ Hole a ∧ (a = 0x2007#16 → PictureMemoryExists s.vaddr) ∧ (a = 0x4014#16 → v.toNat ≤ 7)

/-- Every memory is in its canonical form and inside its size (`10_state.md` R40, R47, R48). -/
structure State.Inv (s : State) : Prop where
  ram : s.ram.wf ∧ s.ram.within Config.ramSize
  prgLo : s.prgLo.wf ∧ s.prgLo.within Config.prgBankSize
  prgHi : s.prgHi.wf ∧ s.prgHi.within Config.prgBankSize
  oam : s.oam.wf ∧ s.oam.within Config.oamSize
  pt0 : s.pt0.wf ∧ s.pt0.within Config.ptSize
  pt1 : s.pt1.wf ∧ s.pt1.within Config.ptSize
  nt : s.nt.wf ∧ s.nt.within Config.ntSize
  pal : s.pal.wf ∧ s.pal.within Config.palSize

/-- A state `HostConstruct()` can give (`70_reset_and_hazards.md` R340, R341): the spec's values where it states
them, any value everywhere else (decision D17). -/
structure State.Launch (s : State) : Prop where
  a : s.a = 0x00
  x : s.x = 0x00
  y : s.y = 0x00
  p : s.p = 0x24
  sp : s.sp = 0xFD
  w : s.w = false
  nmiPending : s.nmiPending = false
  data : s.Inv

/-- The states a host can bring the machine to from a construction state. After an IllegalOpcode it may go on
from the state the fault carries (R300, D21). -/
inductive Reachable : State → Prop where
  | construct {s : State} (h : s.Launch) : Reachable s
  | operate {s t : State} (op : HostOp) (h : Reachable s) (e : hostApply op s = .next t) : Reachable t
  | resume {s t : State} {b : Byte} (h : Reachable s) (e : step s = .fault (.illegalOpcode b t)) : Reachable t

/-- A run of `k` steps from `s` is safe when none of them faults or is refused. DESIGN CHOICE, unsafe (log entry 19):
the spec leaves the end of a run to the model (`60_exceptions.md` R326); here it is a step count, with no host
operation between the steps. -/
def SafeRun : Nat → State → Prop
  | 0, _ => True
  | k + 1, s => ∃ t, step s = .next t ∧ SafeRun k t

end Sys2Proof.Machine
end

