-- ==== Sys2Proof/Certificates/Slice0/Obligations.lean ====
section
/-! DEFINITION. The statements for the provers. Each is read beside the rules of `spec/` it cites in
`OBLIGATIONS.json`. A statement about an instruction says the whole next state, as `s` (or the state its last bus
access left) with the fields it changes; every other field is then unchanged, which is its frame. -/

namespace Sys2Proof.Stated

open Sys2Proof.Machine

/-- What becomes of the status byte: each of N, V, Z, C is given or kept; I, D, B and U are kept. -/
def Flags (p q : Byte) (n v z c : Option Bool) : Prop :=
  getN q = n.getD (getN p) ∧ getV q = v.getD (getV p) ∧ getZ q = z.getD (getZ p) ∧ getC q = c.getD (getC p) ∧
    getI q = getI p ∧ getD q = getD p ∧ getB q = getB p ∧ getU q = getU p

/-- Bit 7 of a byte, and whether it is 0: what `SetZN` puts into N and Z (`10_state.md` R36). -/
def FlagsZN (p q r : Byte) (v c : Option Bool) : Prop := Flags p q (some (r.getLsbD 7)) v (some (r == 0x00#8)) c

/-- Result and carry of an increment, decrement, shift or rotate, as arithmetic on the operand and the carry-in
(`43_incdec_shift.md` R220 to R229). -/
def rmwResult (m : Mnemonic) (v cin : Nat) : Option (Nat × Option Bool) :=
  match m with
  | .INC => some ((v + 1) % 256, none)
  | .DEC => some ((v + 255) % 256, none)
  | .ASL => some (2 * v % 256, some (decide (128 ≤ v)))
  | .LSR => some (v / 2, some (decide (v % 2 = 1)))
  | .ROL => some ((2 * v + cin) % 256, some (decide (128 ≤ v)))
  | .ROR => some (v / 2 + 128 * cin, some (decide (v % 2 = 1)))
  | _ => none

/-- The branch condition of a mnemonic (`44_control_flow.md` R243 to R250). -/
def branchCondition (m : Mnemonic) (p : Byte) : Option Bool :=
  match m with
  | .BCC => some (!getC p)
  | .BCS => some (getC p)
  | .BEQ => some (getZ p)
  | .BNE => some (!getZ p)
  | .BMI => some (getN p)
  | .BPL => some (!getN p)
  | .BVC => some (!getV p)
  | .BVS => some (getV p)
  | _ => none

/-- `Push` of each byte in turn. -/
def pushAll : List Byte → State → Except Refusal State
  | [], s => .ok s
  | v :: vs, s =>
    match push v s with
    | .ok t => pushAll vs t
    | .error r => .error r

/-- RAM after three pushes from stack pointer `sp`, in the order of the arguments. -/
def threePushes (ram : Memory) (sp b1 b2 b3 : Byte) : Memory :=
  ((ram.write (0x0100 + sp.toNat) b1).write (0x0100 + (sp - 1#8).toNat) b2).write (0x0100 + (sp - 2#8).toNat) b3

/-- The state after `NmiEntry()` with the request cleared (`60_exceptions.md` R306, R307). -/
def afterNmi (s : State) : State :=
  { s with
    nmiPending := false
    ram := threePushes s.ram s.sp (hiByte s.pc) (loByte s.pc) s.p
    sp := s.sp - 3#8
    lastWr := 0x0100#16 + (s.sp - 2#8).setWidth 16
    lastRd := 0xFFFB#16
    pc := mkWord (s.prgHi.read 0x3FFB) (s.prgHi.read 0x3FFA) }

/-- The bytes of an instruction stand where the program counter points, none of them at the status port. -/
def CodeAt (s : State) (i : Instr) : Prop :=
  ∀ k, k < i.length →
    s.pc + BitVec.ofNat 16 k ≠ 0x2002#16 ∧ s.peek (s.pc + BitVec.ofNat 16 k) = (encode i)[k]?

/-- The mnemonics whose operation assigns `PC` (`30_encoding.md` R138). -/
def assignsPc : List Mnemonic := [.BCC, .BCS, .BEQ, .BNE, .BMI, .BPL, .BVC, .BVS, .JMP, .JSR, .RTS, .RTI, .BRK]

/-- The mnemonics that write `A`; a shift or rotate does so in its accumulator form (`42_`, `43_`, R180, R188, R189, R262). -/
def writesA (i : Instr) : Bool :=
  i.mode == .ACC || [.LDA, .TXA, .TYA, .ADC, .SBC, .AND, .ORA, .EOR, .PLA].contains i.mnemonic

/-- The mnemonics that write `X` (R181, R186, R190, R222, R224). -/
def writesX (i : Instr) : Bool := [.LDX, .TAX, .TSX, .INX, .DEX].contains i.mnemonic

/-- The mnemonics that write `Y` (R182, R187, R223, R225). -/
def writesY (i : Instr) : Bool := [.LDY, .TAY, .INY, .DEY].contains i.mnemonic

/-- The mnemonics that write `S` (`10_state.md` R21): TXS, and those that push or pull. -/
def writesS (i : Instr) : Bool := [.TXS, .PHA, .PHP, .PLA, .PLP, .JSR, .RTS, .BRK, .RTI].contains i.mnemonic

/-- The bits of `P` a mnemonic writes: the table of `10_state.md` R37. -/
def flagBitsWritten (m : Mnemonic) : List Nat :=
  match m with
  | .ADC | .SBC => [7, 6, 1, 0]
  | .AND | .ORA | .EOR | .LDA | .LDX | .LDY | .TAX | .TAY | .TXA | .TYA | .TSX | .PLA | .INC | .DEC | .INX | .INY
  | .DEX | .DEY => [7, 1]
  | .ASL | .LSR | .ROL | .ROR | .CMP | .CPX | .CPY => [7, 1, 0]
  | .BIT => [7, 6, 1]
  | .CLC | .SEC => [0]
  | .CLI | .SEI => [2]
  | .CLD | .SED => [3]
  | .CLV => [6]
  | .BRK => [2]
  | .PLP | .RTI => [7, 6, 3, 2, 1, 0]
  | .STA | .STX | .STY | .TXS | .PHA | .PHP | .JMP | .JSR | .RTS | .NOP | .BCC | .BCS | .BEQ | .BNE | .BMI | .BPL
  | .BVC | .BVS => []

/-- An instruction that stores to its effective address (access classes write and RMW, R175). -/
def storesToMemory (i : Instr) : Bool :=
  [.STA, .STX, .STY, .INC, .DEC, .ASL, .LSR, .ROL, .ROR].contains i.mnemonic && i.mode != .ACC

/-- An instruction that pushes. -/
def pushes (i : Instr) : Bool := [.PHA, .PHP, .JSR, .BRK].contains i.mnemonic

end Sys2Proof.Stated

open Sys2Proof Sys2Proof.Machine Sys2Proof.Stated

/-! ## State and reset -/

/-- What construction leaves where the spec states a value (R52, R340). `W` and `NMI_PENDING` are the spec's decision
D17. The fields the spec leaves unspecified are not stated: their values in `State.reset` are the model's (log
entries 1 and 2). -/
def Obligations.ResetHasConstructionValues : Prop :=
  State.reset.a = 0x00#8 ∧ State.reset.x = 0x00#8 ∧ State.reset.y = 0x00#8 ∧ State.reset.p = 0x24#8 ∧
    State.reset.sp = 0xFD#8 ∧ State.reset.w = false ∧ State.reset.nmiPending = false

/-- `State.reset` is one of the states construction can give, so its memories are in canonical form. -/
def Obligations.ResetIsLaunchState : Prop := State.reset.Launch ∧ State.reset.Inv

/-- Two memories in canonical form that read the same at every offset are the same data. -/
def Obligations.CanonicalMemoriesEqualByReads : Prop :=
  ∀ m n : Memory, m.wf → n.wf → (∀ k, m.read k = n.read k) → m = n

/-! ## Flags -/

/-- `SetZN` (R36). -/
def Obligations.SetZNFlags : Prop :=
  ∀ v p : Byte, getZ (setZN v p) = (v == 0x00#8) ∧ getN (setZN v p) = v.getLsbD 7 ∧
    ∀ j, j < 8 → j ≠ 1 → j ≠ 7 → (setZN v p).getLsbD j = p.getLsbD j

/-- The layout of the status byte, its construction value, and that writing a flag changes its one bit (R23). -/
def Obligations.StatusByteLayout : Prop :=
  State.reset.p = 0x24#8 ∧
    (∀ p : Byte, p.toNat = 0x80 * (getN p).toNat + 0x40 * (getV p).toNat + 0x20 * (getU p).toNat +
      0x10 * (getB p).toNat + 0x08 * (getD p).toNat + 0x04 * (getI p).toNat + 0x02 * (getZ p).toNat +
      0x01 * (getC p).toNat) ∧
    ∀ (b : Bool) (p : Byte) (j : Nat), j < 8 →
      (setC b p).getLsbD j = (if j = 0 then b else p.getLsbD j) ∧
      (setZ b p).getLsbD j = (if j = 1 then b else p.getLsbD j) ∧
      (setI b p).getLsbD j = (if j = 2 then b else p.getLsbD j) ∧
      (setD b p).getLsbD j = (if j = 3 then b else p.getLsbD j) ∧
      (setV b p).getLsbD j = (if j = 6 then b else p.getLsbD j) ∧
      (setN b p).getLsbD j = (if j = 7 then b else p.getLsbD j)

/-! ## Stack -/

/-- `Push` and `Pop` (R30, R31): they never fail, wrap `S` modulo 256, and go through the bus (decision D16). -/
def Obligations.StackPrimitives : Prop :=
  (∀ (v : Byte) (s : State), push v s =
    .ok { s with
      ram := s.ram.write (0x0100 + s.sp.toNat) v
      lastWr := 0x0100#16 + s.sp.setWidth 16
      sp := s.sp - 1#8 }) ∧
  ∀ s : State, pop s =
    .ok (s.ram.read (0x0100 + (s.sp + 1#8).toNat),
      { s with lastRd := 0x0100#16 + (s.sp + 1#8).setWidth 16, sp := s.sp + 1#8 })

/-- A pull after a push gives the byte back and restores `S`; 256 pushes restore `S`, have written every cell of
the stack page once, and no other cell (R32, the spec's derived rule). -/
def Obligations.StackRoundTrip : Prop :=
  (∀ (v : Byte) (s : State), ∃ t u, push v s = .ok t ∧ pop t = .ok (v, u) ∧ u.sp = s.sp) ∧
  ∀ (vs : List Byte) (s : State), vs.length = 256 →
    ∃ t, pushAll vs s = .ok t ∧ t.sp = s.sp ∧
      (∀ k (h : k < vs.length), t.ram.read (0x0100 + (s.sp - BitVec.ofNat 8 k).toNat) = vs[k]) ∧
      ∀ j, j < 0x0100 ∨ 0x0200 ≤ j → t.ram.read j = s.ram.read j

/-! ## Bus and Picture-Unit -/

/-- `Read8` in every region (R70, R80 to R82, R84 to R88): value, `LAST_RD`, and the status port's side effect. The
port addresses are the spec's decision D10, the refusal D5. -/
def Obligations.BusReadByRegion : Prop :=
  ∀ (a : Word) (s : State),
    (a.toNat ≤ 0x07FF → read8 a s = .ok (s.ram.read a.toNat, { s with lastRd := a })) ∧
    (0x0800 ≤ a.toNat ∧ a.toNat ≤ 0x1FFF → read8 a s = .error .ramOutOfRange) ∧
    (a = 0x2002#16 → read8 a s =
      .ok (s.ppustatus, { s with lastRd := a, ppustatus := s.ppustatus &&& 0x7F#8 })) ∧
    (0x2000 ≤ a.toNat ∧ a.toNat ≤ 0x401F ∧ a ≠ 0x2002#16 → read8 a s = .ok (0x00#8, { s with lastRd := a })) ∧
    (0x4020 ≤ a.toNat ∧ a.toNat ≤ 0x7FFF → read8 a s = .ok (0x00#8, { s with lastRd := a })) ∧
    (0x8000 ≤ a.toNat ∧ a.toNat ≤ 0xBFFF →
      read8 a s = .ok (s.prgLo.read (a.toNat - 0x8000), { s with lastRd := a })) ∧
    (0xC000 ≤ a.toNat → read8 a s = .ok (s.prgHi.read (a.toNat - 0xC000), { s with lastRd := a }))

/-- `Write8` in every region but the two ports that have statements of their own (R71, R80, R81, R83, R84, R89 to
R93). Ignored writes are the spec's decision D11. -/
def Obligations.BusWriteByRegion : Prop :=
  ∀ (a : Word) (v : Byte) (s : State),
    (a.toNat ≤ 0x07FF → write8 a v s = .ok { s with lastWr := a, ram := s.ram.write a.toNat v }) ∧
    (0x0800 ≤ a.toNat ∧ a.toNat ≤ 0x1FFF → write8 a v s = .error .ramOutOfRange) ∧
    (a = 0x2000#16 → write8 a v s = .ok { s with lastWr := a, ppuctrl := v }) ∧
    (a = 0x2001#16 → write8 a v s = .ok { s with lastWr := a, ppumask := v }) ∧
    (a = 0x2006#16 ∧ s.w = false → write8 a v s =
      .ok { s with lastWr := a, vaddr := (s.vaddr &&& 0x00FF#16) ||| (v.setWidth 16 <<< 8), w := true }) ∧
    (a = 0x2006#16 ∧ s.w = true → write8 a v s =
      .ok { s with lastWr := a, vaddr := (s.vaddr &&& 0xFF00#16) ||| v.setWidth 16, w := false }) ∧
    (0x2000 ≤ a.toNat ∧ a ≠ 0x2000#16 ∧ a ≠ 0x2001#16 ∧ a ≠ 0x2006#16 ∧ a ≠ 0x2007#16 ∧ a ≠ 0x4014#16 →
      write8 a v s = .ok { s with lastWr := a })

/-- The two-write protocol from a cleared toggle: high byte, then low byte, and the toggle is clear again (R94). -/
def Obligations.VramAddressTakesTwoWrites : Prop :=
  ∀ (h l : Byte) (s : State), s.w = false →
    ∃ t u, write8 0x2006#16 h s = .ok t ∧ t.w = true ∧ write8 0x2006#16 l t = .ok u ∧
      u = { s with lastWr := 0x2006#16, vaddr := mkWord h l }

/-- A write of the VRAM data port: into the array the range decode selects, then the pointer steps by 1 modulo 65536;
refused where no storage is (R95, R111 to R113; the refusal is the spec's decision D6). -/
def Obligations.DataPortWritesThrough : Prop :=
  ∀ (v : Byte) (s : State),
    let t := { s with lastWr := 0x2007#16, vaddr := s.vaddr + 1#16 }
    let n := s.vaddr.toNat
    (n ≤ 0x0FFF → write8 0x2007#16 v s = .ok { t with pt0 := s.pt0.write n v }) ∧
    (0x1000 ≤ n ∧ n ≤ 0x1FFF → write8 0x2007#16 v s = .ok { t with pt1 := s.pt1.write (n - 0x1000) v }) ∧
    (0x2000 ≤ n ∧ n ≤ 0x2FFF → write8 0x2007#16 v s = .ok { t with nt := s.nt.write (n - 0x2000) v }) ∧
    (0x3F00 ≤ n ∧ n ≤ 0x3FFF → write8 0x2007#16 v s = .ok { t with pal := s.pal.write (n - 0x3F00) v }) ∧
    ((0x3000 ≤ n ∧ n ≤ 0x3EFF) ∨ 0x4000 ≤ n → write8 0x2007#16 v s = .error .pictureMemoryOutOfRange)

/-- Sprite DMA copies 256 bytes of the RAM array verbatim to OAM and changes nothing else but `LAST_WR`; a page that
is not RAM is refused (R96; the refusal is the spec's decision D14). -/
def Obligations.SpriteDmaCopiesPage : Prop :=
  ∀ (v : Byte) (s : State),
    (v.toNat ≤ 7 → ∃ t, write8 0x4014#16 v s = .ok t ∧ t = { s with lastWr := 0x4014#16, oam := t.oam } ∧
      (∀ k, k < 256 → t.oam.read k = s.ram.read (0x100 * v.toNat + k)) ∧
      (s.ram.wf → t.oam.wf) ∧ t.oam.within 256) ∧
    (8 ≤ v.toNat → write8 0x4014#16 v s = .error .dmaSourceOutOfRange)

/-- Picture-Memory exists at 0x0000 to 0x2FFF and 0x3F00 to 0x3FFF only; a read gives the last byte written there
and a write changes no other cell (R110 to R113, R48: no aliasing). -/
def Obligations.PictureMemoryReadAfterWrite : Prop :=
  ∀ (p : Word) (v : Byte) (s : State),
    (PictureMemoryExists p → ∃ t, pmemWrite p v s = .ok t ∧ pmemRead p t = .ok v ∧
      (∀ q, q ≠ p → pmemRead q t = pmemRead q s) ∧
      t = { s with pt0 := t.pt0, pt1 := t.pt1, nt := t.nt, pal := t.pal }) ∧
    (¬ PictureMemoryExists p → pmemRead p s = .error .pictureMemoryOutOfRange ∧
      pmemWrite p v s = .error .pictureMemoryOutOfRange)

/-- Word reads: two byte reads in order, little-endian, the second address modulo 65536 (R72), or inside the zero
page, where they never fail (R73). The order is the spec's decision D4. -/
def Obligations.WordReadsAreTwoByteReads : Prop :=
  (∀ (a : Word) (s s1 s2 : State) (lo hi : Byte), read8 a s = .ok (lo, s1) → read8 (a + 1#16) s1 = .ok (hi, s2) →
    read16 a s = .ok (mkWord hi lo, s2)) ∧
  (∀ (a : Word) (s : State) (r : Refusal), read8 a s = .error r → read16 a s = .error r) ∧
  (∀ (a : Word) (s s1 : State) (lo : Byte) (r : Refusal), read8 a s = .ok (lo, s1) → read8 (a + 1#16) s1 = .error r →
    read16 a s = .error r) ∧
  (∀ h l : Byte, (mkWord h l).toNat = 256 * h.toNat + l.toNat) ∧
  ∀ (z : Byte) (s : State), read16ZP z s =
    .ok (mkWord (s.ram.read ((z.toNat + 1) % 256)) (s.ram.read z.toNat), { s with lastRd := (z + 1#8).setWidth 16 })

/-- After a bus write every other address reads as before, and a RAM address reads what was written (R120, R81, R126). -/
def Obligations.BusReadAfterWrite : Prop :=
  ∀ (a : Word) (v : Byte) (s t : State), write8 a v s = .ok t →
    (a.toNat ≤ 0x07FF → t.peek a = some v) ∧ ∀ b, b ≠ a → t.peek b = s.peek b

/-! ## Addressing modes -/

/-- The effective address of every mode but `IND`, and the state its pointer reads leave (R165 to R170, R172, R173);
sums are reduced to 16 bits (the spec's decision D3). -/
def Obligations.EffectiveAddresses : Prop :=
  ∀ (d : Byte) (w : Word) (s : State),
    effAddr (.zp d) s = .ok (BitVec.ofNat 16 d.toNat, s) ∧
    effAddr (.zpx d) s = .ok (BitVec.ofNat 16 ((d.toNat + s.x.toNat) % 256), s) ∧
    effAddr (.zpy d) s = .ok (BitVec.ofNat 16 ((d.toNat + s.y.toNat) % 256), s) ∧
    effAddr (.abs w) s = .ok (w, s) ∧
    effAddr (.abx w) s = .ok (BitVec.ofNat 16 (w.toNat + s.x.toNat), s) ∧
    effAddr (.aby w) s = .ok (BitVec.ofNat 16 (w.toNat + s.y.toNat), s) ∧
    (let z := (d.toNat + s.x.toNat) % 256
     effAddr (.izx d) s =
       .ok (mkWord (s.ram.read ((z + 1) % 256)) (s.ram.read z), { s with lastRd := BitVec.ofNat 16 ((z + 1) % 256) })) ∧
    (let z := d.toNat
     effAddr (.izy d) s =
       .ok (BitVec.ofNat 16 (256 * (s.ram.read ((z + 1) % 256)).toNat + (s.ram.read z).toNat + s.y.toNat),
         { s with lastRd := BitVec.ofNat 16 ((z + 1) % 256) }))

/-- The indirect pointer: low byte at the operand address, high byte at the next address of the same page (R171). -/
def Obligations.IndirectPointerStaysInPage : Prop :=
  ∀ (w : Word) (s : State), ¬ Hole w → ¬ Hole ((w &&& 0xFF00#16) ||| ((w + 1#16) &&& 0x00FF#16)) →
    ∃ lo hi s1 s2, read8 w s = .ok (lo, s1) ∧
      read8 ((w &&& 0xFF00#16) ||| ((w + 1#16) &&& 0x00FF#16)) s1 = .ok (hi, s2) ∧
      effAddr (.ind w) s = .ok (mkWord hi lo, s2)

/-! ## Encoding -/

/-- Decoding and encoding agree: a well-formed instruction's bytes decode to it and leave the rest, and bytes that
decode are exactly the encoding of what they decode to (R130 to R135). Every instruction is well formed (R136). -/
def Obligations.DecodeEncodeAgree : Prop :=
  (∀ i : Instr, i.wellFormed = true) ∧
  (∀ (i : Instr) (rest : List Byte), i.wellFormed = true → decode (encode i ++ rest) = .ok (i, rest)) ∧
  ∀ (bs : List Byte) (i : Instr) (rest : List Byte), decode bs = .ok (i, rest) → bs = encode i ++ rest

/-- Exactly the 105 listed bytes have no row (R135); every other byte has the row of its own opcode. Which bytes are
recognised is the spec's decision D1. -/
def Obligations.UnrecognisedOpcodes : Prop :=
  let unrecognised : List Nat :=
    [0x02, 0x03, 0x04, 0x07, 0x0B, 0x0C, 0x0F, 0x12, 0x13, 0x14, 0x17, 0x1A, 0x1B, 0x1C, 0x1F] ++
    [0x22, 0x23, 0x27, 0x2B, 0x2F, 0x32, 0x33, 0x34, 0x37, 0x3A, 0x3B, 0x3C, 0x3F, 0x42, 0x43] ++
    [0x44, 0x47, 0x4B, 0x4F, 0x52, 0x53, 0x54, 0x57, 0x5A, 0x5B, 0x5C, 0x5F, 0x62, 0x63, 0x64] ++
    [0x67, 0x6B, 0x6F, 0x72, 0x73, 0x74, 0x77, 0x7A, 0x7B, 0x7C, 0x7F, 0x80, 0x82, 0x83, 0x87] ++
    [0x89, 0x8B, 0x8F, 0x92, 0x93, 0x97, 0x9B, 0x9C, 0x9E, 0x9F, 0xA3, 0xA7, 0xAB, 0xAF, 0xB2] ++
    [0xB3, 0xB7, 0xBB, 0xBF, 0xC2, 0xC3, 0xC7, 0xCB, 0xCF, 0xD2, 0xD3, 0xD4, 0xD7, 0xDA, 0xDB] ++
    [0xDC, 0xDF, 0xE2, 0xE3, 0xE7, 0xEB, 0xEF, 0xF2, 0xF3, 0xF4, 0xF7, 0xFA, 0xFB, 0xFC, 0xFF]
  unrecognised.length = 105 ∧ opcodeTable.length = 151 ∧
    ∀ b : Byte, (lookup b).map (fun r => r.opcode) = if unrecognised.contains b.toNat then none else some b

/-- Ten byte strings written out from the matrix of R134 and the examples of R150 decode to what they stand for (loads,
stores, arithmetic, decrement, rotate, jump, branch, stack, BRK); a byte with no row is rejected (R135). The last
clause is no rule of the spec: `outOfBytes` is the byte-string decoder's own outcome (DESIGN CHOICE, log entry 10). -/
def Obligations.SampleWordsDecode : Prop :=
  decode [0xA9#8, 0x10#8] = .ok (.ldaImm 0x10#8, []) ∧
  decode [0xBD#8, 0x34#8, 0x12#8] = .ok (.ldaAbx 0x1234#16, []) ∧
  decode [0x91#8, 0x20#8] = .ok (.staIzy 0x20#8, []) ∧
  decode [0xE9#8, 0x01#8] = .ok (.sbcImm 0x01#8, []) ∧
  decode [0xDE#8, 0x00#8, 0x03#8] = .ok (.decAbx 0x0300#16, []) ∧
  decode [0x6A#8] = .ok (.rorAcc, []) ∧
  decode [0x6C#8, 0xFF#8, 0x02#8] = .ok (.jmpInd 0x02FF#16, []) ∧
  decode [0xD0#8, 0xFD#8] = .ok (.bne 0xFD#8, []) ∧
  decode [0x28#8] = .ok (.plp, []) ∧
  decode [0x00#8, 0x00#8] = .ok (.brk, [0x00#8]) ∧
  decode [0x02#8] = .error (.unrecognisedOpcode 0x02#8) ∧
  decode [0xAD#8, 0x34#8] = .error .outOfBytes

/-! ## The step -/

/-- A step with no NMI to take runs the instruction whose bytes stand at the program counter, with `PC` past them and
`LAST_RD` at the last of them; wherever the bytes stand, it runs what the fetch gives (R133, R160, R161, R310). -/
def Obligations.StepRunsDecodedInstruction : Prop :=
  (∀ (s : State) (i : Instr), nmiTaken s = false → CodeAt s i →
    step s = exec i { s with
      pc := s.pc + BitVec.ofNat 16 i.length
      lastRd := s.pc + BitVec.ofNat 16 (i.length - 1) }) ∧
  ∀ (s t : State) (i : Instr), nmiTaken s = false → fetchInstr s = .instr i t → step s = exec i t

/-- The program counter advances by the encoded length for every instruction that does not assign it, and for an
untaken branch (R138, the spec's derived rule). -/
def Obligations.PcAdvancesByLength : Prop :=
  ∀ (s t : State) (i : Instr), nmiTaken s = false → CodeAt s i → step s = .next t →
    (assignsPc.contains i.mnemonic = false → t.pc = s.pc + BitVec.ofNat 16 i.length) ∧
    (branchCondition i.mnemonic s.p = some false → t.pc = s.pc + 2#16)

/-- An unrecognised byte ends the step in IllegalOpcode with that byte; the carried state has consumed the opcode
byte and nothing more, after the NMI entry of the same step if there was one (R300, R309). -/
def Obligations.UnrecognisedByteFaults : Prop :=
  ∀ (s t : State) (b : Byte), nmiPrelude s = .ok t → t.peek t.pc = some b → lookup b = none →
    step s = .fault (.illegalOpcode b
      { t with
        pc := t.pc + 1#16
        lastRd := t.pc
        ppustatus := if t.pc = 0x2002#16 then t.ppustatus &&& 0x7F#8 else t.ppustatus })

/-- No instruction faults, and a step faults only on a byte with no row (R301, R135): the carried state has that byte's
address in `LAST_RD`, just before `PC` (R300). That the fault carries the state is conflict C7 and log entry 11
(DEDUCED). -/
def Obligations.OnlyUnrecognisedBytesFault : Prop :=
  (∀ (i : Instr) (s : State) (f : Fault), exec i s ≠ .fault f) ∧
  ∀ (s : State) (f : Fault), step s = .fault f →
    ∃ b t, f = .illegalOpcode b t ∧ lookup b = none ∧ t.pc = t.lastRd + 1#16

/-- A step is refused only for one of the three reasons of R11. -/
def Obligations.RefusalsAreTheSpecs : Prop :=
  ∀ (s : State) (r : Refusal), step s = .refused r →
    r = .ramOutOfRange ∨ r = .pictureMemoryOutOfRange ∨ r = .dmaSourceOutOfRange

/-- A pending and enabled NMI is taken at the start of the step whatever `P.I` is: the request is cleared, `PC` and
`P` are pushed as stored, `P` is kept, `PC` comes from 0xFFFA, and the same step goes on from there (R306, R307,
R310; the spec's decisions D8 and D9). -/
def Obligations.NmiIsTakenFirst : Prop :=
  ∀ s : State, s.nmiPending = true → s.ppuctrl.getLsbD 7 = true →
    nmiPrelude s = .ok (afterNmi s) ∧ step s = step (afterNmi s)

/-- A request is cleared by being taken and by nothing else, and no step raises one (R306, R305, R49). -/
def Obligations.NmiRequestIsHeldUntilTaken : Prop :=
  ∀ s t : State, (step s = .next t ∨ ∃ b, step s = .fault (.illegalOpcode b t)) →
    t.nmiPending = (s.nmiPending && !s.ppuctrl.getLsbD 7)

/-- Every step keeps every memory in its canonical form and size, also in the state a fault carries. -/
def Obligations.StepKeepsMemoryForm : Prop :=
  ∀ s t : State, s.Inv → (step s = .next t ∨ ∃ b, step s = .fault (.illegalOpcode b t)) → t.Inv

/-- In every state a host can reach from construction the memories are in form and the stored break and unused bits
are 0 and 1 (R28, the spec's derived rule). -/
def Obligations.ReachableStatesKeepForm : Prop :=
  ∀ s : State, Reachable s → s.Inv ∧ s.p &&& 0x30#8 = 0x20#8

/-- No step writes bits 4 and 5 of the stored `P`, the PRG banks (R28, R40, R83). -/
def Obligations.StepKeepsStoredBitsAndRom : Prop :=
  ∀ s t : State, (step s = .next t ∨ ∃ b, step s = .fault (.illegalOpcode b t)) →
    t.p &&& 0x30#8 = s.p &&& 0x30#8 ∧ t.prgLo = s.prgLo ∧ t.prgHi = s.prgHi

/-- Each piece of Picture-Unit state changes only in a step whose last write was to the port that drives it (R42, R43,
R45 to R48, R100, R126). -/
def Obligations.DeviceStateChangesThroughItsPort : Prop :=
  ∀ s t : State, step s = .next t →
    (t.ppuctrl ≠ s.ppuctrl → t.lastWr = 0x2000#16) ∧
    (t.ppumask ≠ s.ppumask → t.lastWr = 0x2001#16) ∧
    (t.w ≠ s.w → t.lastWr = 0x2006#16) ∧
    (t.vaddr ≠ s.vaddr → t.lastWr = 0x2006#16 ∨ t.lastWr = 0x2007#16) ∧
    (t.pt0 ≠ s.pt0 ∨ t.pt1 ≠ s.pt1 ∨ t.nt ≠ s.nt ∨ t.pal ≠ s.pal → t.lastWr = 0x2007#16) ∧
    (t.oam ≠ s.oam → t.lastWr = 0x4014#16)

/-- A step leaves the status register as it is or clears its bit 7; the CPU can do nothing else to it (R44, R86, R90). -/
def Obligations.StepOnlyClearsVblank : Prop :=
  ∀ s t : State, (step s = .next t ∨ ∃ b, step s = .fault (.illegalOpcode b t)) →
    t.ppustatus = s.ppustatus ∨ t.ppustatus = s.ppustatus &&& 0x7F#8

/-! ## Loads, stores, transfers -/

/-- LDA, LDX, LDY in every form complete unless the effective address has no storage, and load the byte and its Z and
N (R180 to R182, R175, R164). -/
def Obligations.LoadInstructions : Prop :=
  (∀ (i : Instr) (s : State) (v : Byte), operandOf i = .immediate v → ∃ q, FlagsZN s.p q v none none ∧
    (i.mnemonic = .LDA → exec i s = .next { s with a := v, p := q }) ∧
    (i.mnemonic = .LDX → exec i s = .next { s with x := v, p := q }) ∧
    (i.mnemonic = .LDY → exec i s = .next { s with y := v, p := q })) ∧
  ∀ (i : Instr) (s t : State) (m : Mem) (ea : Word), operandOf i = .memory m → effAddr m s = .ok (ea, t) →
    ¬ Hole ea → ∃ v q, busValue ea t = .ok v ∧ FlagsZN s.p q v none none ∧
      (i.mnemonic = .LDA → exec i s = .next { readEffect ea t with a := v, p := q }) ∧
      (i.mnemonic = .LDX → exec i s = .next { readEffect ea t with x := v, p := q }) ∧
      (i.mnemonic = .LDY → exec i s = .next { readEffect ea t with y := v, p := q })

/-- STA, STX, STY in every form complete where the bus takes the write, with its effect and no other; elsewhere they
are refused (R183 to R185, R175). -/
def Obligations.StoreInstructions : Prop :=
  ∀ (i : Instr) (s t : State) (m : Mem) (ea : Word) (v : Byte), operandOf i = .memory m →
    effAddr m s = .ok (ea, t) →
    (i.mnemonic = .STA ∧ v = s.a ∨ i.mnemonic = .STX ∧ v = s.x ∨ i.mnemonic = .STY ∧ v = s.y) →
    (WriteAccepted ea v t → ∃ u, write8 ea v t = .ok u ∧ exec i s = .next u) ∧
    (¬ WriteAccepted ea v t → ∃ r, exec i s = .refused r)

/-- The six transfers with their opcodes (R186 to R191); TXS writes no flag. -/
def Obligations.TransferInstructions : Prop :=
  (decode [0xAA#8] = .ok (.tax, []) ∧ decode [0xA8#8] = .ok (.tay, []) ∧ decode [0x8A#8] = .ok (.txa, []) ∧
    decode [0x98#8] = .ok (.tya, []) ∧ decode [0xBA#8] = .ok (.tsx, []) ∧ decode [0x9A#8] = .ok (.txs, [])) ∧
  ∀ s : State,
    (∃ q, FlagsZN s.p q s.a none none ∧ exec .tax s = .next { s with x := s.a, p := q } ∧
      exec .tay s = .next { s with y := s.a, p := q }) ∧
    (∃ q, FlagsZN s.p q s.x none none ∧ exec .txa s = .next { s with a := s.x, p := q }) ∧
    (∃ q, FlagsZN s.p q s.y none none ∧ exec .tya s = .next { s with a := s.y, p := q }) ∧
    (∃ q, FlagsZN s.p q s.sp none none ∧ exec .tsx s = .next { s with x := s.sp, p := q }) ∧
    exec .txs s = .next { s with sp := s.x }

/-! ## Arithmetic and logic -/

/-- ADC in every form: the sum of `A`, the operand and the carry as an unbounded integer, stored modulo 256, carry its
unsigned overflow, V by the spec's formula on the old `A`; `P.D` plays no part (R200, R210, R212). -/
def Obligations.AddWithCarry : Prop :=
  let spec (s u : State) (m : Byte) : Prop :=
    let sum := s.a.toNat + m.toNat + (getC s.p).toNat
    u.a = BitVec.ofNat 8 sum ∧
      FlagsZN s.p u.p u.a (some ((s.a ^^^ u.a) &&& (m ^^^ u.a) &&& 0x80#8 != 0x00#8)) (some (decide (0xFF < sum)))
  (∀ (s : State) (v : Byte), ∃ u, exec (.adcImm v) s = .next u ∧ spec s u v ∧ u = { s with a := u.a, p := u.p }) ∧
  ∀ (i : Instr) (s t : State) (m : Mem) (ea : Word), i.mnemonic = .ADC → operandOf i = .memory m →
    effAddr m s = .ok (ea, t) → ¬ Hole ea →
    ∃ v u, busValue ea t = .ok v ∧ exec i s = .next u ∧ spec s u v ∧
      u = { readEffect ea t with a := u.a, p := u.p }

/-- SBC in every form: the difference as a signed integer, carry when no borrow occurred, V by the spec's formula;
`P.D` plays no part (R201, R210, R212; conflict C1). -/
def Obligations.SubtractWithBorrow : Prop :=
  let spec (s u : State) (m : Byte) : Prop :=
    let diff : Int := (s.a.toNat : Int) - m.toNat - (1 - (getC s.p).toNat)
    (u.a.toNat : Int) = diff % 256 ∧
      FlagsZN s.p u.p u.a (some ((s.a ^^^ m) &&& (s.a ^^^ u.a) &&& 0x80#8 != 0x00#8)) (some (decide (0 ≤ diff)))
  (∀ (s : State) (v : Byte), ∃ u, exec (.sbcImm v) s = .next u ∧ spec s u v ∧ u = { s with a := u.a, p := u.p }) ∧
  ∀ (i : Instr) (s t : State) (m : Mem) (ea : Word), i.mnemonic = .SBC → operandOf i = .memory m →
    effAddr m s = .ok (ea, t) → ¬ Hole ea →
    ∃ v u, busValue ea t = .ok v ∧ exec i s = .next u ∧ spec s u v ∧
      u = { readEffect ea t with a := u.a, p := u.p }

/-- V after ADC and SBC is signed overflow: the exact sum or difference of the two's-complement bytes, carry or borrow
included, lies outside -128 to 127 (R210, R200, R201). -/
def Obligations.OverflowIsSignedOverflow : Prop :=
  ∀ (s : State) (m : Byte),
    (∃ u, exec (.adcImm m) s = .next u ∧
      (getV u.p = true ↔ s.a.toInt + m.toInt + (getC s.p).toNat < -128 ∨ 127 < s.a.toInt + m.toInt + (getC s.p).toNat)) ∧
    ∃ u, exec (.sbcImm m) s = .next u ∧
      (getV u.p = true ↔ s.a.toInt - m.toInt - (1 - (getC s.p).toNat) < -128 ∨
        127 < s.a.toInt - m.toInt - (1 - (getC s.p).toNat))

/-- SBC with operand M is ADC with operand `M ^ 0xFF`: result and all flags coincide (R201, derived there). -/
def Obligations.SubtractIsAddOfComplement : Prop :=
  ∀ (s : State) (m : Byte), exec (.sbcImm m) s = exec (.adcImm (m ^^^ 0xFF#8)) s

/-- AND, ORA, EOR in every form (R202 to R204). -/
def Obligations.LogicInstructions : Prop :=
  let spec (i : Instr) (s base : State) (m : Byte) : Prop :=
    (i.mnemonic = .AND → ∃ q, FlagsZN s.p q (s.a &&& m) none none ∧
      exec i s = .next { base with a := s.a &&& m, p := q }) ∧
    (i.mnemonic = .ORA → ∃ q, FlagsZN s.p q (s.a ||| m) none none ∧
      exec i s = .next { base with a := s.a ||| m, p := q }) ∧
    (i.mnemonic = .EOR → ∃ q, FlagsZN s.p q (s.a ^^^ m) none none ∧
      exec i s = .next { base with a := s.a ^^^ m, p := q })
  (∀ (i : Instr) (s : State) (v : Byte), operandOf i = .immediate v → spec i s s v) ∧
  ∀ (i : Instr) (s t : State) (m : Mem) (ea : Word), operandOf i = .memory m → effAddr m s = .ok (ea, t) →
    ¬ Hole ea → ∃ v, busValue ea t = .ok v ∧ spec i s (readEffect ea t) v

/-- BIT in both forms: Z from `A & M`, N and V from bits 7 and 6 of the memory byte; `A` is kept (R205). -/
def Obligations.BitTestInstructions : Prop :=
  ∀ (i : Instr) (s t : State) (m : Mem) (ea : Word), i.mnemonic = .BIT → operandOf i = .memory m →
    effAddr m s = .ok (ea, t) → ¬ Hole ea →
    ∃ v q, busValue ea t = .ok v ∧
      Flags s.p q (some (v.getLsbD 7)) (some (v.getLsbD 6)) (some (s.a &&& v == 0x00#8)) none ∧
      exec i s = .next { readEffect ea t with p := q }

/-- CMP, CPX, CPY in every form: C is the unsigned comparison, Z equality, N bit 7 of the 8-bit difference; V and every
register are kept (R206 to R208, R211). -/
def Obligations.CompareInstructions : Prop :=
  let spec (i : Instr) (s base : State) (m : Byte) : Prop :=
    ∀ reg : Byte, (i.mnemonic = .CMP ∧ reg = s.a ∨ i.mnemonic = .CPX ∧ reg = s.x ∨ i.mnemonic = .CPY ∧ reg = s.y) →
      ∃ q, Flags s.p q (some ((reg - m).getLsbD 7)) none (some (reg == m)) (some (decide (m.toNat ≤ reg.toNat))) ∧
        exec i s = .next { base with p := q }
  (∀ (i : Instr) (s : State) (v : Byte), operandOf i = .immediate v → spec i s s v) ∧
  ∀ (i : Instr) (s t : State) (m : Mem) (ea : Word), operandOf i = .memory m → effAddr m s = .ok (ea, t) →
    ¬ Hole ea → ∃ v, busValue ea t = .ok v ∧ spec i s (readEffect ea t) v

/-! ## Increments, decrements, shifts, rotates -/

/-- INX, INY, DEX, DEY with their opcodes (R222 to R225): modulo 256, Z and N, never C or V. -/
def Obligations.RegisterIncrementInstructions : Prop :=
  (decode [0xE8#8] = .ok (.inx, []) ∧ decode [0xC8#8] = .ok (.iny, []) ∧ decode [0xCA#8] = .ok (.dex, []) ∧
    decode [0x88#8] = .ok (.dey, [])) ∧
  ∀ s : State,
    (∃ q, FlagsZN s.p q (s.x + 1#8) none none ∧ exec .inx s = .next { s with x := s.x + 1#8, p := q }) ∧
    (∃ q, FlagsZN s.p q (s.y + 1#8) none none ∧ exec .iny s = .next { s with y := s.y + 1#8, p := q }) ∧
    (∃ q, FlagsZN s.p q (s.x - 1#8) none none ∧ exec .dex s = .next { s with x := s.x - 1#8, p := q }) ∧
    ∃ q, FlagsZN s.p q (s.y - 1#8) none none ∧ exec .dey s = .next { s with y := s.y - 1#8, p := q }

/-- ASL, LSR, ROL, ROR on `A`, as arithmetic on the operand and the carry-in (R226 to R229, R163). -/
def Obligations.AccumulatorShifts : Prop :=
  ∀ (i : Instr) (s : State) (n : Nat) (c : Option Bool), i.mode = .ACC →
    rmwResult i.mnemonic s.a.toNat (getC s.p).toNat = some (n, c) →
    ∃ r q, r.toNat = n ∧ FlagsZN s.p q r none c ∧ exec i s = .next { s with a := r, p := q }

/-- INC, DEC, ASL, LSR, ROL, ROR on memory: one read, one write of the same address, then the flags from the result,
as arithmetic on the byte read and the carry-in; complete where the bus takes both accesses (R220, R221, R226 to
R230). -/
def Obligations.ReadModifyWriteInstructions : Prop :=
  ∀ (i : Instr) (s t : State) (m : Mem) (ea : Word) (v r : Byte) (c : Option Bool), operandOf i = .memory m →
    effAddr m s = .ok (ea, t) → busValue ea t = .ok v →
    rmwResult i.mnemonic v.toNat (getC s.p).toNat = some (r.toNat, c) →
    WriteAccepted ea r (readEffect ea t) →
    ∃ u q, write8 ea r (readEffect ea t) = .ok u ∧ FlagsZN s.p q r none c ∧ exec i s = .next { u with p := q }

/-! ## Jumps, subroutines, branches -/

/-- JMP in both forms (R240, R171): only `PC`, and for the indirect form the two pointer reads. -/
def Obligations.JumpInstructions : Prop :=
  (∀ (w : Word) (s : State), exec (.jmpAbs w) s = .next { s with pc := w }) ∧
  ∀ (w : Word) (s : State), ¬ Hole w → ¬ Hole ((w &&& 0xFF00#16) ||| ((w + 1#16) &&& 0x00FF#16)) →
    ∃ lo hi s1 s2, read8 w s = .ok (lo, s1) ∧
      read8 ((w &&& 0xFF00#16) ||| ((w + 1#16) &&& 0x00FF#16)) s1 = .ok (hi, s2) ∧
      exec (.jmpInd w) s = .next { s2 with pc := mkWord hi lo }

/-- JSR: the pushed word is the address of its last byte, which is `PC - 1` once its bytes are fetched, high byte first;
then `PC` is the operand (R241; the spec's decision D7). -/
def Obligations.JsrPushesReturnAddress : Prop :=
  ∀ (w : Word) (s : State), exec (.jsr w) s =
    .next { s with
      ram := (s.ram.write (0x0100 + s.sp.toNat) (hiByte (s.pc - 1#16))).write (0x0100 + (s.sp - 1#8).toNat)
        (loByte (s.pc - 1#16))
      sp := s.sp - 2#8
      lastWr := 0x0100#16 + (s.sp - 1#8).setWidth 16
      pc := w }

/-- RTS: low byte, then high byte, and `PC` one past the pulled word (R242). -/
def Obligations.RtsPullsReturnAddress : Prop :=
  ∀ s : State, exec .rts s =
    .next { s with
      sp := s.sp + 2#8
      lastRd := 0x0100#16 + (s.sp + 2#8).setWidth 16
      pc := mkWord (s.ram.read (0x0100 + (s.sp + 2#8).toNat)) (s.ram.read (0x0100 + (s.sp + 1#8).toNat)) + 1#16 }

/-- JSR and then RTS resume after the JSR with `S` restored, the registers and every byte outside the two stack cells
as before (R242, derived there from R241). -/
def Obligations.ReturnFollowsCall : Prop :=
  ∀ (w : Word) (s : State), ∃ t u, exec (.jsr w) s = .next t ∧ exec .rts t = .next u ∧ u.pc = s.pc ∧
    u = { s with ram := u.ram, lastRd := u.lastRd, lastWr := u.lastWr } ∧
    ∀ k, k ≠ 0x0100 + s.sp.toNat → k ≠ 0x0100 + (s.sp - 1#8).toNat → u.ram.read k = s.ram.read k

/-- The eight branches (R243 to R251, R174): `PC`, already past the branch, moves by the signed displacement modulo
65536 when the condition holds; nothing else changes. -/
def Obligations.BranchInstructions : Prop :=
  ∀ (i : Instr) (s : State) (d : Byte) (c : Bool), operandOf i = .relative d →
    branchCondition i.mnemonic s.p = some c →
    exec i s = .next { s with pc := if c then s.pc + BitVec.ofInt 16 d.toInt else s.pc }

/-- Every relative instruction is a branch with one of the eight conditions, so `BranchInstructions` leaves none out. -/
def Obligations.RelativeInstructionsAreBranches : Prop :=
  ∀ (i : Instr) (p : Byte), (∃ d, operandOf i = .relative d) ↔ (branchCondition i.mnemonic p).isSome = true

/-! ## Stack, flags, system -/

/-- PHA, PHP, PLA, PLP (R260 to R263): PHP pushes `P | 0x30`, PLP keeps bits 4 and 5. -/
def Obligations.StackInstructions : Prop :=
  ∀ s : State,
    let v := s.ram.read (0x0100 + (s.sp + 1#8).toNat)
    let pushed (b : Byte) : State := { s with
      ram := s.ram.write (0x0100 + s.sp.toNat) b, sp := s.sp - 1#8, lastWr := 0x0100#16 + s.sp.setWidth 16 }
    let pulled : State := { s with sp := s.sp + 1#8, lastRd := 0x0100#16 + (s.sp + 1#8).setWidth 16 }
    exec .pha s = .next (pushed s.a) ∧
    exec .php s = .next (pushed (s.p ||| 0x30#8)) ∧
    (∃ q, FlagsZN s.p q v none none ∧ exec .pla s = .next { pulled with a := v, p := q }) ∧
    exec .plp s = .next { pulled with p := (s.p &&& 0x30#8) ||| (v &&& 0xCF#8) }

/-- The seven flag instructions and NOP with their opcodes (R264 to R271): one bit of `P`, or nothing. -/
def Obligations.FlagInstructions : Prop :=
  (decode [0x18#8] = .ok (.clc, []) ∧ decode [0x38#8] = .ok (.sec, []) ∧ decode [0x58#8] = .ok (.cli, []) ∧
    decode [0x78#8] = .ok (.sei, []) ∧ decode [0xD8#8] = .ok (.cld, []) ∧ decode [0xF8#8] = .ok (.sed, []) ∧
    decode [0xB8#8] = .ok (.clv, []) ∧ decode [0xEA#8] = .ok (.nop, [])) ∧
  ∀ s : State,
    exec .clc s = .next { s with p := s.p &&& 0xFE#8 } ∧
    exec .sec s = .next { s with p := s.p ||| 0x01#8 } ∧
    exec .cli s = .next { s with p := s.p &&& 0xFB#8 } ∧
    exec .sei s = .next { s with p := s.p ||| 0x04#8 } ∧
    exec .cld s = .next { s with p := s.p &&& 0xF7#8 } ∧
    exec .sed s = .next { s with p := s.p ||| 0x08#8 } ∧
    exec .clv s = .next { s with p := s.p &&& 0xBF#8 } ∧
    exec .nop s = .next s

/-- BRK: pushes `PC + 1` once its byte is fetched, high byte first, then `P | 0x30`; sets I; `PC` from 0xFFFE (R272,
R313; general knowledge in the spec, its decision D2). -/
def Obligations.BrkEntersHandler : Prop :=
  ∀ s : State, exec .brk s =
    .next { s with
      ram := threePushes s.ram s.sp (hiByte (s.pc + 1#16)) (loByte (s.pc + 1#16)) (s.p ||| 0x30#8)
      sp := s.sp - 3#8
      lastWr := 0x0100#16 + (s.sp - 2#8).setWidth 16
      lastRd := 0xFFFF#16
      p := s.p ||| 0x04#8
      pc := mkWord (s.prgHi.read 0x3FFF) (s.prgHi.read 0x3FFE) }

/-- RTI, opcode 0x40: status with bits 4 and 5 kept, then `PC` low byte first with no increment; it touches neither the
request nor the control register (R273). -/
def Obligations.RtiReturnsFromHandler : Prop :=
  decode [0x40#8] = .ok (.rti, []) ∧
  ∀ s : State, exec .rti s =
    .next { s with
      sp := s.sp + 3#8
      p := (s.p &&& 0x30#8) ||| (s.ram.read (0x0100 + (s.sp + 1#8).toNat) &&& 0xCF#8)
      lastRd := 0x0100#16 + (s.sp + 3#8).setWidth 16
      pc := mkWord (s.ram.read (0x0100 + (s.sp + 3#8).toNat)) (s.ram.read (0x0100 + (s.sp + 2#8).toNat)) }

/-- RTI right after an NMI entry or after BRK restores `P`, `S` and the pushed `PC` exactly, whatever `S` was (R311,
the spec's derived rule). -/
def Obligations.RtiUndoesHandlerEntry : Prop :=
  ∀ s : State,
    (∃ u, exec .rti (afterNmi s) = .next u ∧ u.pc = s.pc ∧ u.p = s.p ∧ u.sp = s.sp ∧
      u.a = s.a ∧ u.x = s.x ∧ u.y = s.y) ∧
    ∃ t u, exec .brk s = .next t ∧ exec .rti t = .next u ∧ u.pc = s.pc + 1#16 ∧ u.p = s.p ∧ u.sp = s.sp ∧
      u.a = s.a ∧ u.x = s.x ∧ u.y = s.y

/-! ## Frames of all instructions -/

/-- What an instruction of any kind leaves alone: each CPU register unless it is the instruction's own, each bit of `P`
outside the table of R37, `PC` unless the instruction assigns it, the PRG banks and the pending request. -/
def Obligations.RegisterAndFlagFrame : Prop :=
  ∀ (i : Instr) (s t : State), exec i s = .next t →
    (writesA i = false → t.a = s.a) ∧
    (writesX i = false → t.x = s.x) ∧
    (writesY i = false → t.y = s.y) ∧
    (writesS i = false → t.sp = s.sp) ∧
    (∀ j, j < 8 → (flagBitsWritten i.mnemonic).contains j = false → t.p.getLsbD j = s.p.getLsbD j) ∧
    (assignsPc.contains i.mnemonic = false → t.pc = s.pc) ∧
    t.prgLo = s.prgLo ∧ t.prgHi = s.prgHi ∧ t.nmiPending = s.nmiPending

/-- An instruction that stores to memory changes no byte but the one at its effective address, as every address reads;
OAM and Picture-Memory change only through their ports (R175, R176, R183 to R185, R230). -/
def Obligations.StoreFrame : Prop :=
  ∀ (i : Instr) (s t u : State) (m : Mem) (ea : Word), storesToMemory i = true → operandOf i = .memory m →
    effAddr m s = .ok (ea, t) → exec i s = .next u →
    u.lastWr = ea ∧
    (∀ a, a ≠ ea → u.peek a = s.peek a) ∧
    (ea ≠ 0x4014#16 → u.oam = s.oam) ∧
    (ea ≠ 0x2007#16 → u.pt0 = s.pt0 ∧ u.pt1 = s.pt1 ∧ u.nt = s.nt ∧ u.pal = s.pal)

/-- An instruction that neither stores nor pushes changes no memory at all and no Picture-Unit register but, by
reading it, the status register; `LAST_WR` stays (R175, R177). -/
def Obligations.NoStoreFrame : Prop :=
  ∀ (i : Instr) (s t : State), storesToMemory i = false → pushes i = false → exec i s = .next t →
    t = { s with
      a := t.a, x := t.x, y := t.y, sp := t.sp, p := t.p, pc := t.pc, lastRd := t.lastRd, ppustatus := t.ppustatus } ∧
    (∀ a, a ≠ 0x2002#16 → t.peek a = s.peek a) ∧
    (t.ppustatus = s.ppustatus ∨ t.ppustatus = s.ppustatus &&& 0x7F#8)

/-! ## Host operations -/

/-- ROM load: both PRG banks get the same 16 KiB, the pattern tables the two blocks after it, `PC` the word at 0xFFFC,
`LAST_RD` 0xFFFD, and nothing else changes; an image that is too short is refused (R342, R343, R345; the layout is the
spec's decision D18). -/
def Obligations.RomLoad : Prop :=
  ∀ (img : List Byte) (s : State),
    (∀ h : 0x6010 ≤ img.length, ∃ t, hostApply (.loadRom img) s = .next t ∧
      (∀ k (hk : k < 0x4000), t.prgLo.read k = img[16 + k] ∧ t.prgHi.read k = img[16 + k]) ∧
      (∀ k (hk : k < 0x1000), t.pt0.read k = img[0x4010 + k] ∧ t.pt1.read k = img[0x5010 + k]) ∧
      t.pc = mkWord img[16 + 0x3FFD] img[16 + 0x3FFC] ∧
      t = { s with
        prgLo := t.prgLo, prgHi := t.prgLo, pt0 := t.pt0, pt1 := t.pt1, pc := t.pc, lastRd := 0xFFFD#16 }) ∧
    (img.length < 0x6010 → hostApply (.loadRom img) s = .refused .romImageTooShort)
end

