-- ==== Sys2Proof/Laws/Memory.lean ====
section
/-! SUPPORT. The laws of a byte memory: a read after a write, and that every memory operation keeps the canonical
form and the size. -/

namespace Sys2Proof.Machine.Memory

@[simp] theorem read_nil (k : Nat) : Memory.read [] k = unlisted := rfl

@[simp] theorem wf_nil : Memory.wf [] := by simp [wf]

@[simp] theorem within_nil (n : Nat) : Memory.within n [] := by simp [within]

theorem read_of_notMem {m : Memory} {k : Nat} (h : ∀ c ∈ m, c.1 ≠ k) : m.read k = unlisted := by
  induction m with
  | nil => rfl
  | cons c m ih =>
    simp only [List.mem_cons, forall_eq_or_imp] at h
    simp [Memory.read, h.1, ih h.2]

theorem read_filter_other (m : Memory) {k j : Nat} (h : j ≠ k) :
    Memory.read (m.filter fun c => c.1 != k) j = m.read j := by
  induction m with
  | nil => rfl
  | cons c m ih =>
    by_cases hc : c.1 = k
    · have hj : c.1 ≠ j := fun e => h (e ▸ hc)
      simp [hc, Memory.read, ih]
      intro e; exact absurd e.symm h
    · simp [hc, Memory.read, ih]

theorem read_insertCell (m : Memory) (k j : Nat) (b : Byte) (hk : ∀ c ∈ m, c.1 ≠ k) :
    Memory.read (insertCell k b m) j = if j = k then b else m.read j := by
  induction m with
  | nil => simp [insertCell, Memory.read, eq_comm (a := k)]
  | cons c m ih =>
    simp only [List.mem_cons, forall_eq_or_imp] at hk
    unfold insertCell
    by_cases hlt : k < c.1
    · by_cases h : j = k
      · simp [hlt, Memory.read, h]
      · have : ¬ k = j := fun e => h e.symm
        simp [hlt, Memory.read, h, this]
    · by_cases h : j = k
      · subst h; simp [hlt, Memory.read, hk.1, ih hk.2]
      · simp [hlt, Memory.read, ih hk.2, h]

theorem read_write (m : Memory) (k j : Nat) (b : Byte) :
    (m.write k b).read j = if j = k then b else m.read j := by
  have hk : ∀ c ∈ m.filter (fun c => c.1 != k), c.1 ≠ k := by simp
  unfold Memory.write
  by_cases hb : b = unlisted
  · by_cases h : j = k
    · subst h; simp [hb, read_of_notMem hk]
    · simp [hb, h, read_filter_other]
  · by_cases h : j = k
    · simp [hb, read_insertCell _ _ _ _ hk, h]
    · simp [hb, read_insertCell _ _ _ _ hk, h, read_filter_other]

@[simp] theorem read_write_same (m : Memory) (k : Nat) (b : Byte) : (m.write k b).read k = b := by
  simp [read_write]

theorem read_write_other (m : Memory) {k j : Nat} (b : Byte) (h : j ≠ k) :
    (m.write k b).read j = m.read j := by
  simp [read_write, h]

theorem mem_insertCell {m : Memory} {k : Nat} {b : Byte} {c : Host.Cell} :
    c ∈ insertCell k b m ↔ c = (k, b) ∨ c ∈ m := by
  induction m with
  | nil => simp [insertCell]
  | cons d m ih =>
    unfold insertCell
    split
    · simp
    · simp [ih]; tauto

theorem pairwise_insertCell {m : Memory} {k : Nat} {b : Byte} (hk : ∀ c ∈ m, c.1 ≠ k)
    (h : m.Pairwise fun c d => c.1 < d.1) : (insertCell k b m).Pairwise fun c d => c.1 < d.1 := by
  induction m with
  | nil => simp [insertCell]
  | cons c m ih =>
    rw [List.pairwise_cons] at h
    simp only [List.mem_cons, forall_eq_or_imp] at hk
    unfold insertCell
    by_cases hlt : k < c.1
    · simp only [hlt, if_true, List.pairwise_cons, List.mem_cons, forall_eq_or_imp]
      exact ⟨⟨trivial, fun d hd => lt_trans hlt (h.1 d hd)⟩, h⟩
    · simp only [hlt, if_false, List.pairwise_cons]
      refine ⟨fun d hd => ?_, ih hk.2 h.2⟩
      rcases mem_insertCell.1 hd with rfl | hd
      · have := hk.1; simp only; omega
      · exact h.1 d hd

/-- A write keeps the canonical form. -/
theorem wf_write {m : Memory} (h : m.wf) (k : Nat) (b : Byte) : (m.write k b).wf := by
  have hp := h.1.filter fun c => c.1 != k
  have hv : ∀ c ∈ m.filter (fun c => c.1 != k), c.2 ≠ unlisted :=
    fun c hc => h.2 c (List.mem_of_mem_filter hc)
  unfold Memory.write
  split
  · exact ⟨hp, hv⟩
  · refine ⟨pairwise_insertCell (by simp) hp, fun c hc => ?_⟩
    rcases mem_insertCell.1 hc with rfl | hc
    · assumption
    · exact hv c hc

/-- A write inside the size stays inside it. -/
theorem within_write {n : Nat} {m : Memory} (h : m.within n) {k : Nat} (hk : k < n) (b : Byte) :
    (m.write k b).within n := by
  unfold Memory.write
  split
  · exact fun c hc => h c (List.mem_of_mem_filter hc)
  · intro c hc
    rcases mem_insertCell.1 hc with rfl | hc
    · exact hk
    · exact h c (List.mem_of_mem_filter hc)

/-- A window keeps the canonical form. -/
theorem wf_window {m : Memory} (h : m.wf) (base n : Nat) : (m.window base n).wf := by
  unfold Memory.window
  constructor
  · rw [List.pairwise_filterMap]
    refine h.1.imp fun {c d} hcd c' hc' d' hd' => ?_
    split at hc' <;> simp at hc'
    split at hd' <;> simp at hd'
    subst hc' hd'
    simp only; omega
  · intro c hc
    obtain ⟨d, hd, e⟩ := List.mem_filterMap.1 hc
    split at e <;> simp at e
    exact e ▸ h.2 d hd

/-- A window is inside its length. -/
theorem within_window (m : Memory) (base n : Nat) : (m.window base n).within n := by
  intro c hc
  obtain ⟨d, _, e⟩ := List.mem_filterMap.1 hc
  split at e <;> simp at e
  subst e; simp only; omega

/-- What a window reads as. -/
theorem read_window (m : Memory) (base n k : Nat) (hk : k < n) :
    (m.window base n).read k = m.read (base + k) := by
  unfold Memory.window
  induction m with
  | nil => rfl
  | cons c m ih =>
    rw [List.filterMap_cons]
    by_cases hc : base ≤ c.1 ∧ c.1 < base + n
    · simp only [hc, and_self, if_true, Memory.read, ih]
      have : (c.1 - base = k) ↔ (c.1 = base + k) := by omega
      simp only [this]
    · have : c.1 ≠ base + k := by omega
      simp only [hc, if_false, Memory.read, this, ih]

theorem mem_ofBytes {l : List Byte} {start : Nat} {c : Host.Cell} (h : c ∈ ofBytes start l) :
    start ≤ c.1 ∧ c.1 < start + l.length ∧ c.2 ≠ unlisted := by
  induction l generalizing start with
  | nil => simp [ofBytes] at h
  | cons b l ih =>
    simp only [ofBytes, List.mem_append] at h
    rcases h with h | h
    · split at h <;> simp at h
      subst h
      exact ⟨le_rfl, by simp, ‹_›⟩
    · have := ih h
      simp only [List.length_cons]
      exact ⟨by omega, by omega, this.2.2⟩

/-- Bytes laid out from an offset on are in the canonical form. -/
theorem wf_ofBytes (l : List Byte) (start : Nat) : (ofBytes start l).wf := by
  refine ⟨?_, fun c hc => (mem_ofBytes hc).2.2⟩
  induction l generalizing start with
  | nil => simp [ofBytes]
  | cons b l ih =>
    simp only [ofBytes]
    split
    · exact ih _
    · simp only [List.singleton_append, List.pairwise_cons]
      exact ⟨fun c hc => (mem_ofBytes hc).1, ih _⟩

/-- Bytes laid out from 0 on are inside their number. -/
theorem within_ofBytes {l : List Byte} {n : Nat} (h : l.length ≤ n) : (ofBytes 0 l).within n := by
  intro c hc
  have := mem_ofBytes hc
  omega

/-- What laid-out bytes read as. -/
theorem read_ofBytes (l : List Byte) (start k : Nat) (hk : k < l.length) :
    (ofBytes start l).read (start + k) = l[k] := by
  induction l generalizing start k with
  | nil => simp at hk
  | cons b l ih =>
    cases k with
    | zero =>
      have hn : ∀ c ∈ ofBytes (start + 1) l, c.1 ≠ start := fun c hc => by
        have := (mem_ofBytes hc).1; omega
      by_cases hb : b = unlisted
      · simp [ofBytes, hb, read_of_notMem hn]
      · simp [ofBytes, hb, Memory.read]
    | succ k =>
      have e : start + (k + 1) = start + 1 + k := by omega
      have := ih (start + 1) k (by simpa using hk)
      rw [e]
      by_cases hb : b = unlisted
      · simpa [ofBytes, hb] using this
      · have hs : ¬ start = start + 1 + k := by omega
        simpa [ofBytes, hb, Memory.read, hs] using this

end Sys2Proof.Machine.Memory
end

