-- ==== Sys2Proof/Laws/State.lean ====
section
/-! SUPPORT. What each update of a field of State leaves in each field: one lemma per field per update, true
by `rfl`, so that no later proof unfolds a record update. -/

namespace Sys2Proof.Machine.State

@[simp] theorem setA_a (s : State) (v : Byte) : (s.setA v).a = v := rfl
@[simp] theorem setA_x (s : State) (v : Byte) : (s.setA v).x = s.x := rfl
@[simp] theorem setA_y (s : State) (v : Byte) : (s.setA v).y = s.y := rfl
@[simp] theorem setA_sp (s : State) (v : Byte) : (s.setA v).sp = s.sp := rfl
@[simp] theorem setA_pc (s : State) (v : Byte) : (s.setA v).pc = s.pc := rfl
@[simp] theorem setA_p (s : State) (v : Byte) : (s.setA v).p = s.p := rfl
@[simp] theorem setA_ram (s : State) (v : Byte) : (s.setA v).ram = s.ram := rfl
@[simp] theorem setA_prgLo (s : State) (v : Byte) : (s.setA v).prgLo = s.prgLo := rfl
@[simp] theorem setA_prgHi (s : State) (v : Byte) : (s.setA v).prgHi = s.prgHi := rfl
@[simp] theorem setA_lastRd (s : State) (v : Byte) : (s.setA v).lastRd = s.lastRd := rfl
@[simp] theorem setA_lastWr (s : State) (v : Byte) : (s.setA v).lastWr = s.lastWr := rfl
@[simp] theorem setA_ppuctrl (s : State) (v : Byte) : (s.setA v).ppuctrl = s.ppuctrl := rfl
@[simp] theorem setA_ppumask (s : State) (v : Byte) : (s.setA v).ppumask = s.ppumask := rfl
@[simp] theorem setA_ppustatus (s : State) (v : Byte) : (s.setA v).ppustatus = s.ppustatus := rfl
@[simp] theorem setA_vaddr (s : State) (v : Byte) : (s.setA v).vaddr = s.vaddr := rfl
@[simp] theorem setA_w (s : State) (v : Byte) : (s.setA v).w = s.w := rfl
@[simp] theorem setA_oam (s : State) (v : Byte) : (s.setA v).oam = s.oam := rfl
@[simp] theorem setA_pt0 (s : State) (v : Byte) : (s.setA v).pt0 = s.pt0 := rfl
@[simp] theorem setA_pt1 (s : State) (v : Byte) : (s.setA v).pt1 = s.pt1 := rfl
@[simp] theorem setA_nt (s : State) (v : Byte) : (s.setA v).nt = s.nt := rfl
@[simp] theorem setA_pal (s : State) (v : Byte) : (s.setA v).pal = s.pal := rfl
@[simp] theorem setA_nmiPending (s : State) (v : Byte) : (s.setA v).nmiPending = s.nmiPending := rfl
@[simp] theorem setX_a (s : State) (v : Byte) : (s.setX v).a = s.a := rfl
@[simp] theorem setX_x (s : State) (v : Byte) : (s.setX v).x = v := rfl
@[simp] theorem setX_y (s : State) (v : Byte) : (s.setX v).y = s.y := rfl
@[simp] theorem setX_sp (s : State) (v : Byte) : (s.setX v).sp = s.sp := rfl
@[simp] theorem setX_pc (s : State) (v : Byte) : (s.setX v).pc = s.pc := rfl
@[simp] theorem setX_p (s : State) (v : Byte) : (s.setX v).p = s.p := rfl
@[simp] theorem setX_ram (s : State) (v : Byte) : (s.setX v).ram = s.ram := rfl
@[simp] theorem setX_prgLo (s : State) (v : Byte) : (s.setX v).prgLo = s.prgLo := rfl
@[simp] theorem setX_prgHi (s : State) (v : Byte) : (s.setX v).prgHi = s.prgHi := rfl
@[simp] theorem setX_lastRd (s : State) (v : Byte) : (s.setX v).lastRd = s.lastRd := rfl
@[simp] theorem setX_lastWr (s : State) (v : Byte) : (s.setX v).lastWr = s.lastWr := rfl
@[simp] theorem setX_ppuctrl (s : State) (v : Byte) : (s.setX v).ppuctrl = s.ppuctrl := rfl
@[simp] theorem setX_ppumask (s : State) (v : Byte) : (s.setX v).ppumask = s.ppumask := rfl
@[simp] theorem setX_ppustatus (s : State) (v : Byte) : (s.setX v).ppustatus = s.ppustatus := rfl
@[simp] theorem setX_vaddr (s : State) (v : Byte) : (s.setX v).vaddr = s.vaddr := rfl
@[simp] theorem setX_w (s : State) (v : Byte) : (s.setX v).w = s.w := rfl
@[simp] theorem setX_oam (s : State) (v : Byte) : (s.setX v).oam = s.oam := rfl
@[simp] theorem setX_pt0 (s : State) (v : Byte) : (s.setX v).pt0 = s.pt0 := rfl
@[simp] theorem setX_pt1 (s : State) (v : Byte) : (s.setX v).pt1 = s.pt1 := rfl
@[simp] theorem setX_nt (s : State) (v : Byte) : (s.setX v).nt = s.nt := rfl
@[simp] theorem setX_pal (s : State) (v : Byte) : (s.setX v).pal = s.pal := rfl
@[simp] theorem setX_nmiPending (s : State) (v : Byte) : (s.setX v).nmiPending = s.nmiPending := rfl
@[simp] theorem setY_a (s : State) (v : Byte) : (s.setY v).a = s.a := rfl
@[simp] theorem setY_x (s : State) (v : Byte) : (s.setY v).x = s.x := rfl
@[simp] theorem setY_y (s : State) (v : Byte) : (s.setY v).y = v := rfl
@[simp] theorem setY_sp (s : State) (v : Byte) : (s.setY v).sp = s.sp := rfl
@[simp] theorem setY_pc (s : State) (v : Byte) : (s.setY v).pc = s.pc := rfl
@[simp] theorem setY_p (s : State) (v : Byte) : (s.setY v).p = s.p := rfl
@[simp] theorem setY_ram (s : State) (v : Byte) : (s.setY v).ram = s.ram := rfl
@[simp] theorem setY_prgLo (s : State) (v : Byte) : (s.setY v).prgLo = s.prgLo := rfl
@[simp] theorem setY_prgHi (s : State) (v : Byte) : (s.setY v).prgHi = s.prgHi := rfl
@[simp] theorem setY_lastRd (s : State) (v : Byte) : (s.setY v).lastRd = s.lastRd := rfl
@[simp] theorem setY_lastWr (s : State) (v : Byte) : (s.setY v).lastWr = s.lastWr := rfl
@[simp] theorem setY_ppuctrl (s : State) (v : Byte) : (s.setY v).ppuctrl = s.ppuctrl := rfl
@[simp] theorem setY_ppumask (s : State) (v : Byte) : (s.setY v).ppumask = s.ppumask := rfl
@[simp] theorem setY_ppustatus (s : State) (v : Byte) : (s.setY v).ppustatus = s.ppustatus := rfl
@[simp] theorem setY_vaddr (s : State) (v : Byte) : (s.setY v).vaddr = s.vaddr := rfl
@[simp] theorem setY_w (s : State) (v : Byte) : (s.setY v).w = s.w := rfl
@[simp] theorem setY_oam (s : State) (v : Byte) : (s.setY v).oam = s.oam := rfl
@[simp] theorem setY_pt0 (s : State) (v : Byte) : (s.setY v).pt0 = s.pt0 := rfl
@[simp] theorem setY_pt1 (s : State) (v : Byte) : (s.setY v).pt1 = s.pt1 := rfl
@[simp] theorem setY_nt (s : State) (v : Byte) : (s.setY v).nt = s.nt := rfl
@[simp] theorem setY_pal (s : State) (v : Byte) : (s.setY v).pal = s.pal := rfl
@[simp] theorem setY_nmiPending (s : State) (v : Byte) : (s.setY v).nmiPending = s.nmiPending := rfl
@[simp] theorem setSp_a (s : State) (v : Byte) : (s.setSp v).a = s.a := rfl
@[simp] theorem setSp_x (s : State) (v : Byte) : (s.setSp v).x = s.x := rfl
@[simp] theorem setSp_y (s : State) (v : Byte) : (s.setSp v).y = s.y := rfl
@[simp] theorem setSp_sp (s : State) (v : Byte) : (s.setSp v).sp = v := rfl
@[simp] theorem setSp_pc (s : State) (v : Byte) : (s.setSp v).pc = s.pc := rfl
@[simp] theorem setSp_p (s : State) (v : Byte) : (s.setSp v).p = s.p := rfl
@[simp] theorem setSp_ram (s : State) (v : Byte) : (s.setSp v).ram = s.ram := rfl
@[simp] theorem setSp_prgLo (s : State) (v : Byte) : (s.setSp v).prgLo = s.prgLo := rfl
@[simp] theorem setSp_prgHi (s : State) (v : Byte) : (s.setSp v).prgHi = s.prgHi := rfl
@[simp] theorem setSp_lastRd (s : State) (v : Byte) : (s.setSp v).lastRd = s.lastRd := rfl
@[simp] theorem setSp_lastWr (s : State) (v : Byte) : (s.setSp v).lastWr = s.lastWr := rfl
@[simp] theorem setSp_ppuctrl (s : State) (v : Byte) : (s.setSp v).ppuctrl = s.ppuctrl := rfl
@[simp] theorem setSp_ppumask (s : State) (v : Byte) : (s.setSp v).ppumask = s.ppumask := rfl
@[simp] theorem setSp_ppustatus (s : State) (v : Byte) : (s.setSp v).ppustatus = s.ppustatus := rfl
@[simp] theorem setSp_vaddr (s : State) (v : Byte) : (s.setSp v).vaddr = s.vaddr := rfl
@[simp] theorem setSp_w (s : State) (v : Byte) : (s.setSp v).w = s.w := rfl
@[simp] theorem setSp_oam (s : State) (v : Byte) : (s.setSp v).oam = s.oam := rfl
@[simp] theorem setSp_pt0 (s : State) (v : Byte) : (s.setSp v).pt0 = s.pt0 := rfl
@[simp] theorem setSp_pt1 (s : State) (v : Byte) : (s.setSp v).pt1 = s.pt1 := rfl
@[simp] theorem setSp_nt (s : State) (v : Byte) : (s.setSp v).nt = s.nt := rfl
@[simp] theorem setSp_pal (s : State) (v : Byte) : (s.setSp v).pal = s.pal := rfl
@[simp] theorem setSp_nmiPending (s : State) (v : Byte) : (s.setSp v).nmiPending = s.nmiPending := rfl
@[simp] theorem setPc_a (s : State) (v : Word) : (s.setPc v).a = s.a := rfl
@[simp] theorem setPc_x (s : State) (v : Word) : (s.setPc v).x = s.x := rfl
@[simp] theorem setPc_y (s : State) (v : Word) : (s.setPc v).y = s.y := rfl
@[simp] theorem setPc_sp (s : State) (v : Word) : (s.setPc v).sp = s.sp := rfl
@[simp] theorem setPc_pc (s : State) (v : Word) : (s.setPc v).pc = v := rfl
@[simp] theorem setPc_p (s : State) (v : Word) : (s.setPc v).p = s.p := rfl
@[simp] theorem setPc_ram (s : State) (v : Word) : (s.setPc v).ram = s.ram := rfl
@[simp] theorem setPc_prgLo (s : State) (v : Word) : (s.setPc v).prgLo = s.prgLo := rfl
@[simp] theorem setPc_prgHi (s : State) (v : Word) : (s.setPc v).prgHi = s.prgHi := rfl
@[simp] theorem setPc_lastRd (s : State) (v : Word) : (s.setPc v).lastRd = s.lastRd := rfl
@[simp] theorem setPc_lastWr (s : State) (v : Word) : (s.setPc v).lastWr = s.lastWr := rfl
@[simp] theorem setPc_ppuctrl (s : State) (v : Word) : (s.setPc v).ppuctrl = s.ppuctrl := rfl
@[simp] theorem setPc_ppumask (s : State) (v : Word) : (s.setPc v).ppumask = s.ppumask := rfl
@[simp] theorem setPc_ppustatus (s : State) (v : Word) : (s.setPc v).ppustatus = s.ppustatus := rfl
@[simp] theorem setPc_vaddr (s : State) (v : Word) : (s.setPc v).vaddr = s.vaddr := rfl
@[simp] theorem setPc_w (s : State) (v : Word) : (s.setPc v).w = s.w := rfl
@[simp] theorem setPc_oam (s : State) (v : Word) : (s.setPc v).oam = s.oam := rfl
@[simp] theorem setPc_pt0 (s : State) (v : Word) : (s.setPc v).pt0 = s.pt0 := rfl
@[simp] theorem setPc_pt1 (s : State) (v : Word) : (s.setPc v).pt1 = s.pt1 := rfl
@[simp] theorem setPc_nt (s : State) (v : Word) : (s.setPc v).nt = s.nt := rfl
@[simp] theorem setPc_pal (s : State) (v : Word) : (s.setPc v).pal = s.pal := rfl
@[simp] theorem setPc_nmiPending (s : State) (v : Word) : (s.setPc v).nmiPending = s.nmiPending := rfl
@[simp] theorem setP_a (s : State) (v : Byte) : (s.setP v).a = s.a := rfl
@[simp] theorem setP_x (s : State) (v : Byte) : (s.setP v).x = s.x := rfl
@[simp] theorem setP_y (s : State) (v : Byte) : (s.setP v).y = s.y := rfl
@[simp] theorem setP_sp (s : State) (v : Byte) : (s.setP v).sp = s.sp := rfl
@[simp] theorem setP_pc (s : State) (v : Byte) : (s.setP v).pc = s.pc := rfl
@[simp] theorem setP_p (s : State) (v : Byte) : (s.setP v).p = v := rfl
@[simp] theorem setP_ram (s : State) (v : Byte) : (s.setP v).ram = s.ram := rfl
@[simp] theorem setP_prgLo (s : State) (v : Byte) : (s.setP v).prgLo = s.prgLo := rfl
@[simp] theorem setP_prgHi (s : State) (v : Byte) : (s.setP v).prgHi = s.prgHi := rfl
@[simp] theorem setP_lastRd (s : State) (v : Byte) : (s.setP v).lastRd = s.lastRd := rfl
@[simp] theorem setP_lastWr (s : State) (v : Byte) : (s.setP v).lastWr = s.lastWr := rfl
@[simp] theorem setP_ppuctrl (s : State) (v : Byte) : (s.setP v).ppuctrl = s.ppuctrl := rfl
@[simp] theorem setP_ppumask (s : State) (v : Byte) : (s.setP v).ppumask = s.ppumask := rfl
@[simp] theorem setP_ppustatus (s : State) (v : Byte) : (s.setP v).ppustatus = s.ppustatus := rfl
@[simp] theorem setP_vaddr (s : State) (v : Byte) : (s.setP v).vaddr = s.vaddr := rfl
@[simp] theorem setP_w (s : State) (v : Byte) : (s.setP v).w = s.w := rfl
@[simp] theorem setP_oam (s : State) (v : Byte) : (s.setP v).oam = s.oam := rfl
@[simp] theorem setP_pt0 (s : State) (v : Byte) : (s.setP v).pt0 = s.pt0 := rfl
@[simp] theorem setP_pt1 (s : State) (v : Byte) : (s.setP v).pt1 = s.pt1 := rfl
@[simp] theorem setP_nt (s : State) (v : Byte) : (s.setP v).nt = s.nt := rfl
@[simp] theorem setP_pal (s : State) (v : Byte) : (s.setP v).pal = s.pal := rfl
@[simp] theorem setP_nmiPending (s : State) (v : Byte) : (s.setP v).nmiPending = s.nmiPending := rfl
@[simp] theorem setRam_a (s : State) (v : Memory) : (s.setRam v).a = s.a := rfl
@[simp] theorem setRam_x (s : State) (v : Memory) : (s.setRam v).x = s.x := rfl
@[simp] theorem setRam_y (s : State) (v : Memory) : (s.setRam v).y = s.y := rfl
@[simp] theorem setRam_sp (s : State) (v : Memory) : (s.setRam v).sp = s.sp := rfl
@[simp] theorem setRam_pc (s : State) (v : Memory) : (s.setRam v).pc = s.pc := rfl
@[simp] theorem setRam_p (s : State) (v : Memory) : (s.setRam v).p = s.p := rfl
@[simp] theorem setRam_ram (s : State) (v : Memory) : (s.setRam v).ram = v := rfl
@[simp] theorem setRam_prgLo (s : State) (v : Memory) : (s.setRam v).prgLo = s.prgLo := rfl
@[simp] theorem setRam_prgHi (s : State) (v : Memory) : (s.setRam v).prgHi = s.prgHi := rfl
@[simp] theorem setRam_lastRd (s : State) (v : Memory) : (s.setRam v).lastRd = s.lastRd := rfl
@[simp] theorem setRam_lastWr (s : State) (v : Memory) : (s.setRam v).lastWr = s.lastWr := rfl
@[simp] theorem setRam_ppuctrl (s : State) (v : Memory) : (s.setRam v).ppuctrl = s.ppuctrl := rfl
@[simp] theorem setRam_ppumask (s : State) (v : Memory) : (s.setRam v).ppumask = s.ppumask := rfl
@[simp] theorem setRam_ppustatus (s : State) (v : Memory) : (s.setRam v).ppustatus = s.ppustatus := rfl
@[simp] theorem setRam_vaddr (s : State) (v : Memory) : (s.setRam v).vaddr = s.vaddr := rfl
@[simp] theorem setRam_w (s : State) (v : Memory) : (s.setRam v).w = s.w := rfl
@[simp] theorem setRam_oam (s : State) (v : Memory) : (s.setRam v).oam = s.oam := rfl
@[simp] theorem setRam_pt0 (s : State) (v : Memory) : (s.setRam v).pt0 = s.pt0 := rfl
@[simp] theorem setRam_pt1 (s : State) (v : Memory) : (s.setRam v).pt1 = s.pt1 := rfl
@[simp] theorem setRam_nt (s : State) (v : Memory) : (s.setRam v).nt = s.nt := rfl
@[simp] theorem setRam_pal (s : State) (v : Memory) : (s.setRam v).pal = s.pal := rfl
@[simp] theorem setRam_nmiPending (s : State) (v : Memory) : (s.setRam v).nmiPending = s.nmiPending := rfl
@[simp] theorem setPrgLo_a (s : State) (v : Memory) : (s.setPrgLo v).a = s.a := rfl
@[simp] theorem setPrgLo_x (s : State) (v : Memory) : (s.setPrgLo v).x = s.x := rfl
@[simp] theorem setPrgLo_y (s : State) (v : Memory) : (s.setPrgLo v).y = s.y := rfl
@[simp] theorem setPrgLo_sp (s : State) (v : Memory) : (s.setPrgLo v).sp = s.sp := rfl
@[simp] theorem setPrgLo_pc (s : State) (v : Memory) : (s.setPrgLo v).pc = s.pc := rfl
@[simp] theorem setPrgLo_p (s : State) (v : Memory) : (s.setPrgLo v).p = s.p := rfl
@[simp] theorem setPrgLo_ram (s : State) (v : Memory) : (s.setPrgLo v).ram = s.ram := rfl
@[simp] theorem setPrgLo_prgLo (s : State) (v : Memory) : (s.setPrgLo v).prgLo = v := rfl
@[simp] theorem setPrgLo_prgHi (s : State) (v : Memory) : (s.setPrgLo v).prgHi = s.prgHi := rfl
@[simp] theorem setPrgLo_lastRd (s : State) (v : Memory) : (s.setPrgLo v).lastRd = s.lastRd := rfl
@[simp] theorem setPrgLo_lastWr (s : State) (v : Memory) : (s.setPrgLo v).lastWr = s.lastWr := rfl
@[simp] theorem setPrgLo_ppuctrl (s : State) (v : Memory) : (s.setPrgLo v).ppuctrl = s.ppuctrl := rfl
@[simp] theorem setPrgLo_ppumask (s : State) (v : Memory) : (s.setPrgLo v).ppumask = s.ppumask := rfl
@[simp] theorem setPrgLo_ppustatus (s : State) (v : Memory) : (s.setPrgLo v).ppustatus = s.ppustatus := rfl
@[simp] theorem setPrgLo_vaddr (s : State) (v : Memory) : (s.setPrgLo v).vaddr = s.vaddr := rfl
@[simp] theorem setPrgLo_w (s : State) (v : Memory) : (s.setPrgLo v).w = s.w := rfl
@[simp] theorem setPrgLo_oam (s : State) (v : Memory) : (s.setPrgLo v).oam = s.oam := rfl
@[simp] theorem setPrgLo_pt0 (s : State) (v : Memory) : (s.setPrgLo v).pt0 = s.pt0 := rfl
@[simp] theorem setPrgLo_pt1 (s : State) (v : Memory) : (s.setPrgLo v).pt1 = s.pt1 := rfl
@[simp] theorem setPrgLo_nt (s : State) (v : Memory) : (s.setPrgLo v).nt = s.nt := rfl
@[simp] theorem setPrgLo_pal (s : State) (v : Memory) : (s.setPrgLo v).pal = s.pal := rfl
@[simp] theorem setPrgLo_nmiPending (s : State) (v : Memory) : (s.setPrgLo v).nmiPending = s.nmiPending := rfl
@[simp] theorem setPrgHi_a (s : State) (v : Memory) : (s.setPrgHi v).a = s.a := rfl
@[simp] theorem setPrgHi_x (s : State) (v : Memory) : (s.setPrgHi v).x = s.x := rfl
@[simp] theorem setPrgHi_y (s : State) (v : Memory) : (s.setPrgHi v).y = s.y := rfl
@[simp] theorem setPrgHi_sp (s : State) (v : Memory) : (s.setPrgHi v).sp = s.sp := rfl
@[simp] theorem setPrgHi_pc (s : State) (v : Memory) : (s.setPrgHi v).pc = s.pc := rfl
@[simp] theorem setPrgHi_p (s : State) (v : Memory) : (s.setPrgHi v).p = s.p := rfl
@[simp] theorem setPrgHi_ram (s : State) (v : Memory) : (s.setPrgHi v).ram = s.ram := rfl
@[simp] theorem setPrgHi_prgLo (s : State) (v : Memory) : (s.setPrgHi v).prgLo = s.prgLo := rfl
@[simp] theorem setPrgHi_prgHi (s : State) (v : Memory) : (s.setPrgHi v).prgHi = v := rfl
@[simp] theorem setPrgHi_lastRd (s : State) (v : Memory) : (s.setPrgHi v).lastRd = s.lastRd := rfl
@[simp] theorem setPrgHi_lastWr (s : State) (v : Memory) : (s.setPrgHi v).lastWr = s.lastWr := rfl
@[simp] theorem setPrgHi_ppuctrl (s : State) (v : Memory) : (s.setPrgHi v).ppuctrl = s.ppuctrl := rfl
@[simp] theorem setPrgHi_ppumask (s : State) (v : Memory) : (s.setPrgHi v).ppumask = s.ppumask := rfl
@[simp] theorem setPrgHi_ppustatus (s : State) (v : Memory) : (s.setPrgHi v).ppustatus = s.ppustatus := rfl
@[simp] theorem setPrgHi_vaddr (s : State) (v : Memory) : (s.setPrgHi v).vaddr = s.vaddr := rfl
@[simp] theorem setPrgHi_w (s : State) (v : Memory) : (s.setPrgHi v).w = s.w := rfl
@[simp] theorem setPrgHi_oam (s : State) (v : Memory) : (s.setPrgHi v).oam = s.oam := rfl
@[simp] theorem setPrgHi_pt0 (s : State) (v : Memory) : (s.setPrgHi v).pt0 = s.pt0 := rfl
@[simp] theorem setPrgHi_pt1 (s : State) (v : Memory) : (s.setPrgHi v).pt1 = s.pt1 := rfl
@[simp] theorem setPrgHi_nt (s : State) (v : Memory) : (s.setPrgHi v).nt = s.nt := rfl
@[simp] theorem setPrgHi_pal (s : State) (v : Memory) : (s.setPrgHi v).pal = s.pal := rfl
@[simp] theorem setPrgHi_nmiPending (s : State) (v : Memory) : (s.setPrgHi v).nmiPending = s.nmiPending := rfl
@[simp] theorem setLastRd_a (s : State) (v : Word) : (s.setLastRd v).a = s.a := rfl
@[simp] theorem setLastRd_x (s : State) (v : Word) : (s.setLastRd v).x = s.x := rfl
@[simp] theorem setLastRd_y (s : State) (v : Word) : (s.setLastRd v).y = s.y := rfl
@[simp] theorem setLastRd_sp (s : State) (v : Word) : (s.setLastRd v).sp = s.sp := rfl
@[simp] theorem setLastRd_pc (s : State) (v : Word) : (s.setLastRd v).pc = s.pc := rfl
@[simp] theorem setLastRd_p (s : State) (v : Word) : (s.setLastRd v).p = s.p := rfl
@[simp] theorem setLastRd_ram (s : State) (v : Word) : (s.setLastRd v).ram = s.ram := rfl
@[simp] theorem setLastRd_prgLo (s : State) (v : Word) : (s.setLastRd v).prgLo = s.prgLo := rfl
@[simp] theorem setLastRd_prgHi (s : State) (v : Word) : (s.setLastRd v).prgHi = s.prgHi := rfl
@[simp] theorem setLastRd_lastRd (s : State) (v : Word) : (s.setLastRd v).lastRd = v := rfl
@[simp] theorem setLastRd_lastWr (s : State) (v : Word) : (s.setLastRd v).lastWr = s.lastWr := rfl
@[simp] theorem setLastRd_ppuctrl (s : State) (v : Word) : (s.setLastRd v).ppuctrl = s.ppuctrl := rfl
@[simp] theorem setLastRd_ppumask (s : State) (v : Word) : (s.setLastRd v).ppumask = s.ppumask := rfl
@[simp] theorem setLastRd_ppustatus (s : State) (v : Word) : (s.setLastRd v).ppustatus = s.ppustatus := rfl
@[simp] theorem setLastRd_vaddr (s : State) (v : Word) : (s.setLastRd v).vaddr = s.vaddr := rfl
@[simp] theorem setLastRd_w (s : State) (v : Word) : (s.setLastRd v).w = s.w := rfl
@[simp] theorem setLastRd_oam (s : State) (v : Word) : (s.setLastRd v).oam = s.oam := rfl
@[simp] theorem setLastRd_pt0 (s : State) (v : Word) : (s.setLastRd v).pt0 = s.pt0 := rfl
@[simp] theorem setLastRd_pt1 (s : State) (v : Word) : (s.setLastRd v).pt1 = s.pt1 := rfl
@[simp] theorem setLastRd_nt (s : State) (v : Word) : (s.setLastRd v).nt = s.nt := rfl
@[simp] theorem setLastRd_pal (s : State) (v : Word) : (s.setLastRd v).pal = s.pal := rfl
@[simp] theorem setLastRd_nmiPending (s : State) (v : Word) : (s.setLastRd v).nmiPending = s.nmiPending := rfl
@[simp] theorem setLastWr_a (s : State) (v : Word) : (s.setLastWr v).a = s.a := rfl
@[simp] theorem setLastWr_x (s : State) (v : Word) : (s.setLastWr v).x = s.x := rfl
@[simp] theorem setLastWr_y (s : State) (v : Word) : (s.setLastWr v).y = s.y := rfl
@[simp] theorem setLastWr_sp (s : State) (v : Word) : (s.setLastWr v).sp = s.sp := rfl
@[simp] theorem setLastWr_pc (s : State) (v : Word) : (s.setLastWr v).pc = s.pc := rfl
@[simp] theorem setLastWr_p (s : State) (v : Word) : (s.setLastWr v).p = s.p := rfl
@[simp] theorem setLastWr_ram (s : State) (v : Word) : (s.setLastWr v).ram = s.ram := rfl
@[simp] theorem setLastWr_prgLo (s : State) (v : Word) : (s.setLastWr v).prgLo = s.prgLo := rfl
@[simp] theorem setLastWr_prgHi (s : State) (v : Word) : (s.setLastWr v).prgHi = s.prgHi := rfl
@[simp] theorem setLastWr_lastRd (s : State) (v : Word) : (s.setLastWr v).lastRd = s.lastRd := rfl
@[simp] theorem setLastWr_lastWr (s : State) (v : Word) : (s.setLastWr v).lastWr = v := rfl
@[simp] theorem setLastWr_ppuctrl (s : State) (v : Word) : (s.setLastWr v).ppuctrl = s.ppuctrl := rfl
@[simp] theorem setLastWr_ppumask (s : State) (v : Word) : (s.setLastWr v).ppumask = s.ppumask := rfl
@[simp] theorem setLastWr_ppustatus (s : State) (v : Word) : (s.setLastWr v).ppustatus = s.ppustatus := rfl
@[simp] theorem setLastWr_vaddr (s : State) (v : Word) : (s.setLastWr v).vaddr = s.vaddr := rfl
@[simp] theorem setLastWr_w (s : State) (v : Word) : (s.setLastWr v).w = s.w := rfl
@[simp] theorem setLastWr_oam (s : State) (v : Word) : (s.setLastWr v).oam = s.oam := rfl
@[simp] theorem setLastWr_pt0 (s : State) (v : Word) : (s.setLastWr v).pt0 = s.pt0 := rfl
@[simp] theorem setLastWr_pt1 (s : State) (v : Word) : (s.setLastWr v).pt1 = s.pt1 := rfl
@[simp] theorem setLastWr_nt (s : State) (v : Word) : (s.setLastWr v).nt = s.nt := rfl
@[simp] theorem setLastWr_pal (s : State) (v : Word) : (s.setLastWr v).pal = s.pal := rfl
@[simp] theorem setLastWr_nmiPending (s : State) (v : Word) : (s.setLastWr v).nmiPending = s.nmiPending := rfl
@[simp] theorem setPpuctrl_a (s : State) (v : Byte) : (s.setPpuctrl v).a = s.a := rfl
@[simp] theorem setPpuctrl_x (s : State) (v : Byte) : (s.setPpuctrl v).x = s.x := rfl
@[simp] theorem setPpuctrl_y (s : State) (v : Byte) : (s.setPpuctrl v).y = s.y := rfl
@[simp] theorem setPpuctrl_sp (s : State) (v : Byte) : (s.setPpuctrl v).sp = s.sp := rfl
@[simp] theorem setPpuctrl_pc (s : State) (v : Byte) : (s.setPpuctrl v).pc = s.pc := rfl
@[simp] theorem setPpuctrl_p (s : State) (v : Byte) : (s.setPpuctrl v).p = s.p := rfl
@[simp] theorem setPpuctrl_ram (s : State) (v : Byte) : (s.setPpuctrl v).ram = s.ram := rfl
@[simp] theorem setPpuctrl_prgLo (s : State) (v : Byte) : (s.setPpuctrl v).prgLo = s.prgLo := rfl
@[simp] theorem setPpuctrl_prgHi (s : State) (v : Byte) : (s.setPpuctrl v).prgHi = s.prgHi := rfl
@[simp] theorem setPpuctrl_lastRd (s : State) (v : Byte) : (s.setPpuctrl v).lastRd = s.lastRd := rfl
@[simp] theorem setPpuctrl_lastWr (s : State) (v : Byte) : (s.setPpuctrl v).lastWr = s.lastWr := rfl
@[simp] theorem setPpuctrl_ppuctrl (s : State) (v : Byte) : (s.setPpuctrl v).ppuctrl = v := rfl
@[simp] theorem setPpuctrl_ppumask (s : State) (v : Byte) : (s.setPpuctrl v).ppumask = s.ppumask := rfl
@[simp] theorem setPpuctrl_ppustatus (s : State) (v : Byte) : (s.setPpuctrl v).ppustatus = s.ppustatus := rfl
@[simp] theorem setPpuctrl_vaddr (s : State) (v : Byte) : (s.setPpuctrl v).vaddr = s.vaddr := rfl
@[simp] theorem setPpuctrl_w (s : State) (v : Byte) : (s.setPpuctrl v).w = s.w := rfl
@[simp] theorem setPpuctrl_oam (s : State) (v : Byte) : (s.setPpuctrl v).oam = s.oam := rfl
@[simp] theorem setPpuctrl_pt0 (s : State) (v : Byte) : (s.setPpuctrl v).pt0 = s.pt0 := rfl
@[simp] theorem setPpuctrl_pt1 (s : State) (v : Byte) : (s.setPpuctrl v).pt1 = s.pt1 := rfl
@[simp] theorem setPpuctrl_nt (s : State) (v : Byte) : (s.setPpuctrl v).nt = s.nt := rfl
@[simp] theorem setPpuctrl_pal (s : State) (v : Byte) : (s.setPpuctrl v).pal = s.pal := rfl
@[simp] theorem setPpuctrl_nmiPending (s : State) (v : Byte) : (s.setPpuctrl v).nmiPending = s.nmiPending := rfl
@[simp] theorem setPpumask_a (s : State) (v : Byte) : (s.setPpumask v).a = s.a := rfl
@[simp] theorem setPpumask_x (s : State) (v : Byte) : (s.setPpumask v).x = s.x := rfl
@[simp] theorem setPpumask_y (s : State) (v : Byte) : (s.setPpumask v).y = s.y := rfl
@[simp] theorem setPpumask_sp (s : State) (v : Byte) : (s.setPpumask v).sp = s.sp := rfl
@[simp] theorem setPpumask_pc (s : State) (v : Byte) : (s.setPpumask v).pc = s.pc := rfl
@[simp] theorem setPpumask_p (s : State) (v : Byte) : (s.setPpumask v).p = s.p := rfl
@[simp] theorem setPpumask_ram (s : State) (v : Byte) : (s.setPpumask v).ram = s.ram := rfl
@[simp] theorem setPpumask_prgLo (s : State) (v : Byte) : (s.setPpumask v).prgLo = s.prgLo := rfl
@[simp] theorem setPpumask_prgHi (s : State) (v : Byte) : (s.setPpumask v).prgHi = s.prgHi := rfl
@[simp] theorem setPpumask_lastRd (s : State) (v : Byte) : (s.setPpumask v).lastRd = s.lastRd := rfl
@[simp] theorem setPpumask_lastWr (s : State) (v : Byte) : (s.setPpumask v).lastWr = s.lastWr := rfl
@[simp] theorem setPpumask_ppuctrl (s : State) (v : Byte) : (s.setPpumask v).ppuctrl = s.ppuctrl := rfl
@[simp] theorem setPpumask_ppumask (s : State) (v : Byte) : (s.setPpumask v).ppumask = v := rfl
@[simp] theorem setPpumask_ppustatus (s : State) (v : Byte) : (s.setPpumask v).ppustatus = s.ppustatus := rfl
@[simp] theorem setPpumask_vaddr (s : State) (v : Byte) : (s.setPpumask v).vaddr = s.vaddr := rfl
@[simp] theorem setPpumask_w (s : State) (v : Byte) : (s.setPpumask v).w = s.w := rfl
@[simp] theorem setPpumask_oam (s : State) (v : Byte) : (s.setPpumask v).oam = s.oam := rfl
@[simp] theorem setPpumask_pt0 (s : State) (v : Byte) : (s.setPpumask v).pt0 = s.pt0 := rfl
@[simp] theorem setPpumask_pt1 (s : State) (v : Byte) : (s.setPpumask v).pt1 = s.pt1 := rfl
@[simp] theorem setPpumask_nt (s : State) (v : Byte) : (s.setPpumask v).nt = s.nt := rfl
@[simp] theorem setPpumask_pal (s : State) (v : Byte) : (s.setPpumask v).pal = s.pal := rfl
@[simp] theorem setPpumask_nmiPending (s : State) (v : Byte) : (s.setPpumask v).nmiPending = s.nmiPending := rfl
@[simp] theorem setPpustatus_a (s : State) (v : Byte) : (s.setPpustatus v).a = s.a := rfl
@[simp] theorem setPpustatus_x (s : State) (v : Byte) : (s.setPpustatus v).x = s.x := rfl
@[simp] theorem setPpustatus_y (s : State) (v : Byte) : (s.setPpustatus v).y = s.y := rfl
@[simp] theorem setPpustatus_sp (s : State) (v : Byte) : (s.setPpustatus v).sp = s.sp := rfl
@[simp] theorem setPpustatus_pc (s : State) (v : Byte) : (s.setPpustatus v).pc = s.pc := rfl
@[simp] theorem setPpustatus_p (s : State) (v : Byte) : (s.setPpustatus v).p = s.p := rfl
@[simp] theorem setPpustatus_ram (s : State) (v : Byte) : (s.setPpustatus v).ram = s.ram := rfl
@[simp] theorem setPpustatus_prgLo (s : State) (v : Byte) : (s.setPpustatus v).prgLo = s.prgLo := rfl
@[simp] theorem setPpustatus_prgHi (s : State) (v : Byte) : (s.setPpustatus v).prgHi = s.prgHi := rfl
@[simp] theorem setPpustatus_lastRd (s : State) (v : Byte) : (s.setPpustatus v).lastRd = s.lastRd := rfl
@[simp] theorem setPpustatus_lastWr (s : State) (v : Byte) : (s.setPpustatus v).lastWr = s.lastWr := rfl
@[simp] theorem setPpustatus_ppuctrl (s : State) (v : Byte) : (s.setPpustatus v).ppuctrl = s.ppuctrl := rfl
@[simp] theorem setPpustatus_ppumask (s : State) (v : Byte) : (s.setPpustatus v).ppumask = s.ppumask := rfl
@[simp] theorem setPpustatus_ppustatus (s : State) (v : Byte) : (s.setPpustatus v).ppustatus = v := rfl
@[simp] theorem setPpustatus_vaddr (s : State) (v : Byte) : (s.setPpustatus v).vaddr = s.vaddr := rfl
@[simp] theorem setPpustatus_w (s : State) (v : Byte) : (s.setPpustatus v).w = s.w := rfl
@[simp] theorem setPpustatus_oam (s : State) (v : Byte) : (s.setPpustatus v).oam = s.oam := rfl
@[simp] theorem setPpustatus_pt0 (s : State) (v : Byte) : (s.setPpustatus v).pt0 = s.pt0 := rfl
@[simp] theorem setPpustatus_pt1 (s : State) (v : Byte) : (s.setPpustatus v).pt1 = s.pt1 := rfl
@[simp] theorem setPpustatus_nt (s : State) (v : Byte) : (s.setPpustatus v).nt = s.nt := rfl
@[simp] theorem setPpustatus_pal (s : State) (v : Byte) : (s.setPpustatus v).pal = s.pal := rfl
@[simp] theorem setPpustatus_nmiPending (s : State) (v : Byte) : (s.setPpustatus v).nmiPending = s.nmiPending := rfl
@[simp] theorem setVaddr_a (s : State) (v : Word) : (s.setVaddr v).a = s.a := rfl
@[simp] theorem setVaddr_x (s : State) (v : Word) : (s.setVaddr v).x = s.x := rfl
@[simp] theorem setVaddr_y (s : State) (v : Word) : (s.setVaddr v).y = s.y := rfl
@[simp] theorem setVaddr_sp (s : State) (v : Word) : (s.setVaddr v).sp = s.sp := rfl
@[simp] theorem setVaddr_pc (s : State) (v : Word) : (s.setVaddr v).pc = s.pc := rfl
@[simp] theorem setVaddr_p (s : State) (v : Word) : (s.setVaddr v).p = s.p := rfl
@[simp] theorem setVaddr_ram (s : State) (v : Word) : (s.setVaddr v).ram = s.ram := rfl
@[simp] theorem setVaddr_prgLo (s : State) (v : Word) : (s.setVaddr v).prgLo = s.prgLo := rfl
@[simp] theorem setVaddr_prgHi (s : State) (v : Word) : (s.setVaddr v).prgHi = s.prgHi := rfl
@[simp] theorem setVaddr_lastRd (s : State) (v : Word) : (s.setVaddr v).lastRd = s.lastRd := rfl
@[simp] theorem setVaddr_lastWr (s : State) (v : Word) : (s.setVaddr v).lastWr = s.lastWr := rfl
@[simp] theorem setVaddr_ppuctrl (s : State) (v : Word) : (s.setVaddr v).ppuctrl = s.ppuctrl := rfl
@[simp] theorem setVaddr_ppumask (s : State) (v : Word) : (s.setVaddr v).ppumask = s.ppumask := rfl
@[simp] theorem setVaddr_ppustatus (s : State) (v : Word) : (s.setVaddr v).ppustatus = s.ppustatus := rfl
@[simp] theorem setVaddr_vaddr (s : State) (v : Word) : (s.setVaddr v).vaddr = v := rfl
@[simp] theorem setVaddr_w (s : State) (v : Word) : (s.setVaddr v).w = s.w := rfl
@[simp] theorem setVaddr_oam (s : State) (v : Word) : (s.setVaddr v).oam = s.oam := rfl
@[simp] theorem setVaddr_pt0 (s : State) (v : Word) : (s.setVaddr v).pt0 = s.pt0 := rfl
@[simp] theorem setVaddr_pt1 (s : State) (v : Word) : (s.setVaddr v).pt1 = s.pt1 := rfl
@[simp] theorem setVaddr_nt (s : State) (v : Word) : (s.setVaddr v).nt = s.nt := rfl
@[simp] theorem setVaddr_pal (s : State) (v : Word) : (s.setVaddr v).pal = s.pal := rfl
@[simp] theorem setVaddr_nmiPending (s : State) (v : Word) : (s.setVaddr v).nmiPending = s.nmiPending := rfl
@[simp] theorem setW_a (s : State) (v : Bool) : (s.setW v).a = s.a := rfl
@[simp] theorem setW_x (s : State) (v : Bool) : (s.setW v).x = s.x := rfl
@[simp] theorem setW_y (s : State) (v : Bool) : (s.setW v).y = s.y := rfl
@[simp] theorem setW_sp (s : State) (v : Bool) : (s.setW v).sp = s.sp := rfl
@[simp] theorem setW_pc (s : State) (v : Bool) : (s.setW v).pc = s.pc := rfl
@[simp] theorem setW_p (s : State) (v : Bool) : (s.setW v).p = s.p := rfl
@[simp] theorem setW_ram (s : State) (v : Bool) : (s.setW v).ram = s.ram := rfl
@[simp] theorem setW_prgLo (s : State) (v : Bool) : (s.setW v).prgLo = s.prgLo := rfl
@[simp] theorem setW_prgHi (s : State) (v : Bool) : (s.setW v).prgHi = s.prgHi := rfl
@[simp] theorem setW_lastRd (s : State) (v : Bool) : (s.setW v).lastRd = s.lastRd := rfl
@[simp] theorem setW_lastWr (s : State) (v : Bool) : (s.setW v).lastWr = s.lastWr := rfl
@[simp] theorem setW_ppuctrl (s : State) (v : Bool) : (s.setW v).ppuctrl = s.ppuctrl := rfl
@[simp] theorem setW_ppumask (s : State) (v : Bool) : (s.setW v).ppumask = s.ppumask := rfl
@[simp] theorem setW_ppustatus (s : State) (v : Bool) : (s.setW v).ppustatus = s.ppustatus := rfl
@[simp] theorem setW_vaddr (s : State) (v : Bool) : (s.setW v).vaddr = s.vaddr := rfl
@[simp] theorem setW_w (s : State) (v : Bool) : (s.setW v).w = v := rfl
@[simp] theorem setW_oam (s : State) (v : Bool) : (s.setW v).oam = s.oam := rfl
@[simp] theorem setW_pt0 (s : State) (v : Bool) : (s.setW v).pt0 = s.pt0 := rfl
@[simp] theorem setW_pt1 (s : State) (v : Bool) : (s.setW v).pt1 = s.pt1 := rfl
@[simp] theorem setW_nt (s : State) (v : Bool) : (s.setW v).nt = s.nt := rfl
@[simp] theorem setW_pal (s : State) (v : Bool) : (s.setW v).pal = s.pal := rfl
@[simp] theorem setW_nmiPending (s : State) (v : Bool) : (s.setW v).nmiPending = s.nmiPending := rfl
@[simp] theorem setOam_a (s : State) (v : Memory) : (s.setOam v).a = s.a := rfl
@[simp] theorem setOam_x (s : State) (v : Memory) : (s.setOam v).x = s.x := rfl
@[simp] theorem setOam_y (s : State) (v : Memory) : (s.setOam v).y = s.y := rfl
@[simp] theorem setOam_sp (s : State) (v : Memory) : (s.setOam v).sp = s.sp := rfl
@[simp] theorem setOam_pc (s : State) (v : Memory) : (s.setOam v).pc = s.pc := rfl
@[simp] theorem setOam_p (s : State) (v : Memory) : (s.setOam v).p = s.p := rfl
@[simp] theorem setOam_ram (s : State) (v : Memory) : (s.setOam v).ram = s.ram := rfl
@[simp] theorem setOam_prgLo (s : State) (v : Memory) : (s.setOam v).prgLo = s.prgLo := rfl
@[simp] theorem setOam_prgHi (s : State) (v : Memory) : (s.setOam v).prgHi = s.prgHi := rfl
@[simp] theorem setOam_lastRd (s : State) (v : Memory) : (s.setOam v).lastRd = s.lastRd := rfl
@[simp] theorem setOam_lastWr (s : State) (v : Memory) : (s.setOam v).lastWr = s.lastWr := rfl
@[simp] theorem setOam_ppuctrl (s : State) (v : Memory) : (s.setOam v).ppuctrl = s.ppuctrl := rfl
@[simp] theorem setOam_ppumask (s : State) (v : Memory) : (s.setOam v).ppumask = s.ppumask := rfl
@[simp] theorem setOam_ppustatus (s : State) (v : Memory) : (s.setOam v).ppustatus = s.ppustatus := rfl
@[simp] theorem setOam_vaddr (s : State) (v : Memory) : (s.setOam v).vaddr = s.vaddr := rfl
@[simp] theorem setOam_w (s : State) (v : Memory) : (s.setOam v).w = s.w := rfl
@[simp] theorem setOam_oam (s : State) (v : Memory) : (s.setOam v).oam = v := rfl
@[simp] theorem setOam_pt0 (s : State) (v : Memory) : (s.setOam v).pt0 = s.pt0 := rfl
@[simp] theorem setOam_pt1 (s : State) (v : Memory) : (s.setOam v).pt1 = s.pt1 := rfl
@[simp] theorem setOam_nt (s : State) (v : Memory) : (s.setOam v).nt = s.nt := rfl
@[simp] theorem setOam_pal (s : State) (v : Memory) : (s.setOam v).pal = s.pal := rfl
@[simp] theorem setOam_nmiPending (s : State) (v : Memory) : (s.setOam v).nmiPending = s.nmiPending := rfl
@[simp] theorem setPt0_a (s : State) (v : Memory) : (s.setPt0 v).a = s.a := rfl
@[simp] theorem setPt0_x (s : State) (v : Memory) : (s.setPt0 v).x = s.x := rfl
@[simp] theorem setPt0_y (s : State) (v : Memory) : (s.setPt0 v).y = s.y := rfl
@[simp] theorem setPt0_sp (s : State) (v : Memory) : (s.setPt0 v).sp = s.sp := rfl
@[simp] theorem setPt0_pc (s : State) (v : Memory) : (s.setPt0 v).pc = s.pc := rfl
@[simp] theorem setPt0_p (s : State) (v : Memory) : (s.setPt0 v).p = s.p := rfl
@[simp] theorem setPt0_ram (s : State) (v : Memory) : (s.setPt0 v).ram = s.ram := rfl
@[simp] theorem setPt0_prgLo (s : State) (v : Memory) : (s.setPt0 v).prgLo = s.prgLo := rfl
@[simp] theorem setPt0_prgHi (s : State) (v : Memory) : (s.setPt0 v).prgHi = s.prgHi := rfl
@[simp] theorem setPt0_lastRd (s : State) (v : Memory) : (s.setPt0 v).lastRd = s.lastRd := rfl
@[simp] theorem setPt0_lastWr (s : State) (v : Memory) : (s.setPt0 v).lastWr = s.lastWr := rfl
@[simp] theorem setPt0_ppuctrl (s : State) (v : Memory) : (s.setPt0 v).ppuctrl = s.ppuctrl := rfl
@[simp] theorem setPt0_ppumask (s : State) (v : Memory) : (s.setPt0 v).ppumask = s.ppumask := rfl
@[simp] theorem setPt0_ppustatus (s : State) (v : Memory) : (s.setPt0 v).ppustatus = s.ppustatus := rfl
@[simp] theorem setPt0_vaddr (s : State) (v : Memory) : (s.setPt0 v).vaddr = s.vaddr := rfl
@[simp] theorem setPt0_w (s : State) (v : Memory) : (s.setPt0 v).w = s.w := rfl
@[simp] theorem setPt0_oam (s : State) (v : Memory) : (s.setPt0 v).oam = s.oam := rfl
@[simp] theorem setPt0_pt0 (s : State) (v : Memory) : (s.setPt0 v).pt0 = v := rfl
@[simp] theorem setPt0_pt1 (s : State) (v : Memory) : (s.setPt0 v).pt1 = s.pt1 := rfl
@[simp] theorem setPt0_nt (s : State) (v : Memory) : (s.setPt0 v).nt = s.nt := rfl
@[simp] theorem setPt0_pal (s : State) (v : Memory) : (s.setPt0 v).pal = s.pal := rfl
@[simp] theorem setPt0_nmiPending (s : State) (v : Memory) : (s.setPt0 v).nmiPending = s.nmiPending := rfl
@[simp] theorem setPt1_a (s : State) (v : Memory) : (s.setPt1 v).a = s.a := rfl
@[simp] theorem setPt1_x (s : State) (v : Memory) : (s.setPt1 v).x = s.x := rfl
@[simp] theorem setPt1_y (s : State) (v : Memory) : (s.setPt1 v).y = s.y := rfl
@[simp] theorem setPt1_sp (s : State) (v : Memory) : (s.setPt1 v).sp = s.sp := rfl
@[simp] theorem setPt1_pc (s : State) (v : Memory) : (s.setPt1 v).pc = s.pc := rfl
@[simp] theorem setPt1_p (s : State) (v : Memory) : (s.setPt1 v).p = s.p := rfl
@[simp] theorem setPt1_ram (s : State) (v : Memory) : (s.setPt1 v).ram = s.ram := rfl
@[simp] theorem setPt1_prgLo (s : State) (v : Memory) : (s.setPt1 v).prgLo = s.prgLo := rfl
@[simp] theorem setPt1_prgHi (s : State) (v : Memory) : (s.setPt1 v).prgHi = s.prgHi := rfl
@[simp] theorem setPt1_lastRd (s : State) (v : Memory) : (s.setPt1 v).lastRd = s.lastRd := rfl
@[simp] theorem setPt1_lastWr (s : State) (v : Memory) : (s.setPt1 v).lastWr = s.lastWr := rfl
@[simp] theorem setPt1_ppuctrl (s : State) (v : Memory) : (s.setPt1 v).ppuctrl = s.ppuctrl := rfl
@[simp] theorem setPt1_ppumask (s : State) (v : Memory) : (s.setPt1 v).ppumask = s.ppumask := rfl
@[simp] theorem setPt1_ppustatus (s : State) (v : Memory) : (s.setPt1 v).ppustatus = s.ppustatus := rfl
@[simp] theorem setPt1_vaddr (s : State) (v : Memory) : (s.setPt1 v).vaddr = s.vaddr := rfl
@[simp] theorem setPt1_w (s : State) (v : Memory) : (s.setPt1 v).w = s.w := rfl
@[simp] theorem setPt1_oam (s : State) (v : Memory) : (s.setPt1 v).oam = s.oam := rfl
@[simp] theorem setPt1_pt0 (s : State) (v : Memory) : (s.setPt1 v).pt0 = s.pt0 := rfl
@[simp] theorem setPt1_pt1 (s : State) (v : Memory) : (s.setPt1 v).pt1 = v := rfl
@[simp] theorem setPt1_nt (s : State) (v : Memory) : (s.setPt1 v).nt = s.nt := rfl
@[simp] theorem setPt1_pal (s : State) (v : Memory) : (s.setPt1 v).pal = s.pal := rfl
@[simp] theorem setPt1_nmiPending (s : State) (v : Memory) : (s.setPt1 v).nmiPending = s.nmiPending := rfl
@[simp] theorem setNt_a (s : State) (v : Memory) : (s.setNt v).a = s.a := rfl
@[simp] theorem setNt_x (s : State) (v : Memory) : (s.setNt v).x = s.x := rfl
@[simp] theorem setNt_y (s : State) (v : Memory) : (s.setNt v).y = s.y := rfl
@[simp] theorem setNt_sp (s : State) (v : Memory) : (s.setNt v).sp = s.sp := rfl
@[simp] theorem setNt_pc (s : State) (v : Memory) : (s.setNt v).pc = s.pc := rfl
@[simp] theorem setNt_p (s : State) (v : Memory) : (s.setNt v).p = s.p := rfl
@[simp] theorem setNt_ram (s : State) (v : Memory) : (s.setNt v).ram = s.ram := rfl
@[simp] theorem setNt_prgLo (s : State) (v : Memory) : (s.setNt v).prgLo = s.prgLo := rfl
@[simp] theorem setNt_prgHi (s : State) (v : Memory) : (s.setNt v).prgHi = s.prgHi := rfl
@[simp] theorem setNt_lastRd (s : State) (v : Memory) : (s.setNt v).lastRd = s.lastRd := rfl
@[simp] theorem setNt_lastWr (s : State) (v : Memory) : (s.setNt v).lastWr = s.lastWr := rfl
@[simp] theorem setNt_ppuctrl (s : State) (v : Memory) : (s.setNt v).ppuctrl = s.ppuctrl := rfl
@[simp] theorem setNt_ppumask (s : State) (v : Memory) : (s.setNt v).ppumask = s.ppumask := rfl
@[simp] theorem setNt_ppustatus (s : State) (v : Memory) : (s.setNt v).ppustatus = s.ppustatus := rfl
@[simp] theorem setNt_vaddr (s : State) (v : Memory) : (s.setNt v).vaddr = s.vaddr := rfl
@[simp] theorem setNt_w (s : State) (v : Memory) : (s.setNt v).w = s.w := rfl
@[simp] theorem setNt_oam (s : State) (v : Memory) : (s.setNt v).oam = s.oam := rfl
@[simp] theorem setNt_pt0 (s : State) (v : Memory) : (s.setNt v).pt0 = s.pt0 := rfl
@[simp] theorem setNt_pt1 (s : State) (v : Memory) : (s.setNt v).pt1 = s.pt1 := rfl
@[simp] theorem setNt_nt (s : State) (v : Memory) : (s.setNt v).nt = v := rfl
@[simp] theorem setNt_pal (s : State) (v : Memory) : (s.setNt v).pal = s.pal := rfl
@[simp] theorem setNt_nmiPending (s : State) (v : Memory) : (s.setNt v).nmiPending = s.nmiPending := rfl
@[simp] theorem setPal_a (s : State) (v : Memory) : (s.setPal v).a = s.a := rfl
@[simp] theorem setPal_x (s : State) (v : Memory) : (s.setPal v).x = s.x := rfl
@[simp] theorem setPal_y (s : State) (v : Memory) : (s.setPal v).y = s.y := rfl
@[simp] theorem setPal_sp (s : State) (v : Memory) : (s.setPal v).sp = s.sp := rfl
@[simp] theorem setPal_pc (s : State) (v : Memory) : (s.setPal v).pc = s.pc := rfl
@[simp] theorem setPal_p (s : State) (v : Memory) : (s.setPal v).p = s.p := rfl
@[simp] theorem setPal_ram (s : State) (v : Memory) : (s.setPal v).ram = s.ram := rfl
@[simp] theorem setPal_prgLo (s : State) (v : Memory) : (s.setPal v).prgLo = s.prgLo := rfl
@[simp] theorem setPal_prgHi (s : State) (v : Memory) : (s.setPal v).prgHi = s.prgHi := rfl
@[simp] theorem setPal_lastRd (s : State) (v : Memory) : (s.setPal v).lastRd = s.lastRd := rfl
@[simp] theorem setPal_lastWr (s : State) (v : Memory) : (s.setPal v).lastWr = s.lastWr := rfl
@[simp] theorem setPal_ppuctrl (s : State) (v : Memory) : (s.setPal v).ppuctrl = s.ppuctrl := rfl
@[simp] theorem setPal_ppumask (s : State) (v : Memory) : (s.setPal v).ppumask = s.ppumask := rfl
@[simp] theorem setPal_ppustatus (s : State) (v : Memory) : (s.setPal v).ppustatus = s.ppustatus := rfl
@[simp] theorem setPal_vaddr (s : State) (v : Memory) : (s.setPal v).vaddr = s.vaddr := rfl
@[simp] theorem setPal_w (s : State) (v : Memory) : (s.setPal v).w = s.w := rfl
@[simp] theorem setPal_oam (s : State) (v : Memory) : (s.setPal v).oam = s.oam := rfl
@[simp] theorem setPal_pt0 (s : State) (v : Memory) : (s.setPal v).pt0 = s.pt0 := rfl
@[simp] theorem setPal_pt1 (s : State) (v : Memory) : (s.setPal v).pt1 = s.pt1 := rfl
@[simp] theorem setPal_nt (s : State) (v : Memory) : (s.setPal v).nt = s.nt := rfl
@[simp] theorem setPal_pal (s : State) (v : Memory) : (s.setPal v).pal = v := rfl
@[simp] theorem setPal_nmiPending (s : State) (v : Memory) : (s.setPal v).nmiPending = s.nmiPending := rfl
@[simp] theorem setNmiPending_a (s : State) (v : Bool) : (s.setNmiPending v).a = s.a := rfl
@[simp] theorem setNmiPending_x (s : State) (v : Bool) : (s.setNmiPending v).x = s.x := rfl
@[simp] theorem setNmiPending_y (s : State) (v : Bool) : (s.setNmiPending v).y = s.y := rfl
@[simp] theorem setNmiPending_sp (s : State) (v : Bool) : (s.setNmiPending v).sp = s.sp := rfl
@[simp] theorem setNmiPending_pc (s : State) (v : Bool) : (s.setNmiPending v).pc = s.pc := rfl
@[simp] theorem setNmiPending_p (s : State) (v : Bool) : (s.setNmiPending v).p = s.p := rfl
@[simp] theorem setNmiPending_ram (s : State) (v : Bool) : (s.setNmiPending v).ram = s.ram := rfl
@[simp] theorem setNmiPending_prgLo (s : State) (v : Bool) : (s.setNmiPending v).prgLo = s.prgLo := rfl
@[simp] theorem setNmiPending_prgHi (s : State) (v : Bool) : (s.setNmiPending v).prgHi = s.prgHi := rfl
@[simp] theorem setNmiPending_lastRd (s : State) (v : Bool) : (s.setNmiPending v).lastRd = s.lastRd := rfl
@[simp] theorem setNmiPending_lastWr (s : State) (v : Bool) : (s.setNmiPending v).lastWr = s.lastWr := rfl
@[simp] theorem setNmiPending_ppuctrl (s : State) (v : Bool) : (s.setNmiPending v).ppuctrl = s.ppuctrl := rfl
@[simp] theorem setNmiPending_ppumask (s : State) (v : Bool) : (s.setNmiPending v).ppumask = s.ppumask := rfl
@[simp] theorem setNmiPending_ppustatus (s : State) (v : Bool) : (s.setNmiPending v).ppustatus = s.ppustatus := rfl
@[simp] theorem setNmiPending_vaddr (s : State) (v : Bool) : (s.setNmiPending v).vaddr = s.vaddr := rfl
@[simp] theorem setNmiPending_w (s : State) (v : Bool) : (s.setNmiPending v).w = s.w := rfl
@[simp] theorem setNmiPending_oam (s : State) (v : Bool) : (s.setNmiPending v).oam = s.oam := rfl
@[simp] theorem setNmiPending_pt0 (s : State) (v : Bool) : (s.setNmiPending v).pt0 = s.pt0 := rfl
@[simp] theorem setNmiPending_pt1 (s : State) (v : Bool) : (s.setNmiPending v).pt1 = s.pt1 := rfl
@[simp] theorem setNmiPending_nt (s : State) (v : Bool) : (s.setNmiPending v).nt = s.nt := rfl
@[simp] theorem setNmiPending_pal (s : State) (v : Bool) : (s.setNmiPending v).pal = s.pal := rfl
@[simp] theorem setNmiPending_nmiPending (s : State) (v : Bool) : (s.setNmiPending v).nmiPending = v := rfl

end Sys2Proof.Machine.State
end

