-- ==== Sys2Proof/Laws/Bus.lean ====
section
/-! SUPPORT. The laws of the bus: where an access is refused, the value and the effect of a read, and everything a
write can do. -/

namespace Sys2Proof.Machine

@[simp] theorem ok_bind {ε α β : Type} (a : α) (f : α → Except ε β) : (Except.ok a >>= f) = f a := rfl

@[simp] theorem error_bind {ε α β : Type} (e : ε) (f : α → Except ε β) :
    ((Except.error e : Except ε α) >>= f) = .error e := rfl

/-- From the success of a sequence, the success of its parts. -/
theorem bind_eq_ok {ε α β : Type} {x : Except ε α} {f : α → Except ε β} {b : β} :
    (x >>= f) = .ok b ↔ ∃ a, x = .ok a ∧ f a = .ok b := by
  cases x <;> simp

theorem regionOf_ram {a : Word} (h : a.toNat < 0x2000) : regionOf a = .ram := by
  unfold regionOf
  simp only [Config.prgHiBase, Config.prgLoBase, Config.expBase, Config.ioBase]
  split_ifs <;> first | rfl | omega

theorem regionOf_io {a : Word} (h : 0x2000 ≤ a.toNat) (h' : a.toNat < 0x4020) : regionOf a = .io := by
  unfold regionOf
  simp only [Config.prgHiBase, Config.prgLoBase, Config.expBase, Config.ioBase]
  split_ifs <;> first | rfl | omega

theorem regionOf_expansion {a : Word} (h : 0x4020 ≤ a.toNat) (h' : a.toNat < 0x8000) :
    regionOf a = .expansion := by
  unfold regionOf
  simp only [Config.prgHiBase, Config.prgLoBase, Config.expBase, Config.ioBase]
  split_ifs <;> first | rfl | omega

theorem regionOf_prgLo {a : Word} (h : 0x8000 ≤ a.toNat) (h' : a.toNat < 0xC000) : regionOf a = .prgLo := by
  unfold regionOf
  simp only [Config.prgHiBase, Config.prgLoBase, Config.expBase, Config.ioBase]
  split_ifs <;> first | rfl | omega

theorem regionOf_prgHi {a : Word} (h : 0xC000 ≤ a.toNat) : regionOf a = .prgHi := by
  simp [regionOf, Config.prgHiBase, h]

theorem busValue_ram {a : Word} (h : a.toNat < 0x0800) (s : State) :
    busValue a s = .ok (s.ram.read a.toNat) := by
  simp [busValue, regionOf_ram (a := a) (by omega), Config.ramSize, h]

theorem busValue_hole {a : Word} (h : Hole a) (s : State) : busValue a s = .error .ramOutOfRange := by
  have : ¬ a.toNat < 0x0800 := by have := h.1; omega
  simp only [busValue, regionOf_ram (a := a) (by omega), Config.ramSize, this, if_false]

theorem busValue_io {a : Word} (h : 0x2000 ≤ a.toNat) (h' : a.toNat < 0x4020) (s : State) :
    busValue a s = .ok (if a = 0x2002#16 then s.ppustatus else 0x00#8) := by
  simp only [busValue, regionOf_io h h', ioValue, Config.portStatus, ite_self]

theorem busValue_expansion {a : Word} (h : 0x4020 ≤ a.toNat) (h' : a.toNat < 0x8000) (s : State) :
    busValue a s = .ok 0x00#8 := by
  simp [busValue, regionOf_expansion h h']

theorem busValue_prgLo {a : Word} (h : 0x8000 ≤ a.toNat) (h' : a.toNat < 0xC000) (s : State) :
    busValue a s = .ok (s.prgLo.read (a.toNat - 0x8000)) := by
  simp [busValue, regionOf_prgLo h h', Config.prgLoBase]

theorem busValue_prgHi {a : Word} (h : 0xC000 ≤ a.toNat) (s : State) :
    busValue a s = .ok (s.prgHi.read (a.toNat - 0xC000)) := by
  simp [busValue, regionOf_prgHi h, Config.prgHiBase]

/-- A bus read has a value exactly outside the hole. -/
theorem busValue_ok {a : Word} (h : ¬ Hole a) (s : State) : ∃ v, busValue a s = .ok v := by
  by_cases h1 : a.toNat < 0x0800
  · exact ⟨_, busValue_ram h1 s⟩
  by_cases h2 : a.toNat < 0x4020
  · exact ⟨_, busValue_io (by omega) h2 s⟩
  by_cases h3 : a.toNat < 0x8000
  · exact ⟨_, busValue_expansion (by omega) h3 s⟩
  by_cases h4 : a.toNat < 0xC000
  · exact ⟨_, busValue_prgLo (by omega) h4 s⟩
  · exact ⟨_, busValue_prgHi (by omega) s⟩

/-- The value of a bus read depends on RAM, the PRG banks and the status register only. -/
theorem busValue_congr {s t : State} (hr : t.ram = s.ram) (hl : t.prgLo = s.prgLo) (hh : t.prgHi = s.prgHi)
    (hp : t.ppustatus = s.ppustatus) (a : Word) : busValue a t = busValue a s := by
  simp only [busValue, ioValue, hr, hl, hh, hp]

/-- Everything a bus read changes: `LAST_RD`, and bit 7 of the status register at 0x2002 (R70, R86). -/
theorem readEffect_eq (a : Word) (s : State) :
    readEffect a s =
      { s with lastRd := a, ppustatus := if a = 0x2002#16 then s.ppustatus &&& 0x7F#8 else s.ppustatus } := by
  by_cases h : a = 0x2002#16
  · subst h
    rw [readEffect, regionOf_io (by decide) (by decide)]; rfl
  · unfold readEffect
    split <;> simp [ioReadEffect, Config.portStatus, h, State.setLastRd]

@[simp] theorem readEffect_a (a : Word) (s : State) : (readEffect a s).a = s.a := by rw [readEffect_eq]
@[simp] theorem readEffect_x (a : Word) (s : State) : (readEffect a s).x = s.x := by rw [readEffect_eq]
@[simp] theorem readEffect_y (a : Word) (s : State) : (readEffect a s).y = s.y := by rw [readEffect_eq]
@[simp] theorem readEffect_sp (a : Word) (s : State) : (readEffect a s).sp = s.sp := by rw [readEffect_eq]
@[simp] theorem readEffect_pc (a : Word) (s : State) : (readEffect a s).pc = s.pc := by rw [readEffect_eq]
@[simp] theorem readEffect_p (a : Word) (s : State) : (readEffect a s).p = s.p := by rw [readEffect_eq]
@[simp] theorem readEffect_ram (a : Word) (s : State) : (readEffect a s).ram = s.ram := by rw [readEffect_eq]
@[simp] theorem readEffect_prgLo (a : Word) (s : State) : (readEffect a s).prgLo = s.prgLo := by rw [readEffect_eq]
@[simp] theorem readEffect_prgHi (a : Word) (s : State) : (readEffect a s).prgHi = s.prgHi := by rw [readEffect_eq]
@[simp] theorem readEffect_lastRd (a : Word) (s : State) : (readEffect a s).lastRd = a := by rw [readEffect_eq]
@[simp] theorem readEffect_lastWr (a : Word) (s : State) : (readEffect a s).lastWr = s.lastWr := by rw [readEffect_eq]
@[simp] theorem readEffect_ppuctrl (a : Word) (s : State) : (readEffect a s).ppuctrl = s.ppuctrl := by rw [readEffect_eq]
@[simp] theorem readEffect_ppumask (a : Word) (s : State) : (readEffect a s).ppumask = s.ppumask := by rw [readEffect_eq]
@[simp] theorem readEffect_ppustatus (a : Word) (s : State) :
    (readEffect a s).ppustatus = if a = 0x2002#16 then s.ppustatus &&& 0x7F#8 else s.ppustatus := by rw [readEffect_eq]
@[simp] theorem readEffect_vaddr (a : Word) (s : State) : (readEffect a s).vaddr = s.vaddr := by rw [readEffect_eq]
@[simp] theorem readEffect_w (a : Word) (s : State) : (readEffect a s).w = s.w := by rw [readEffect_eq]
@[simp] theorem readEffect_oam (a : Word) (s : State) : (readEffect a s).oam = s.oam := by rw [readEffect_eq]
@[simp] theorem readEffect_pt0 (a : Word) (s : State) : (readEffect a s).pt0 = s.pt0 := by rw [readEffect_eq]
@[simp] theorem readEffect_pt1 (a : Word) (s : State) : (readEffect a s).pt1 = s.pt1 := by rw [readEffect_eq]
@[simp] theorem readEffect_nt (a : Word) (s : State) : (readEffect a s).nt = s.nt := by rw [readEffect_eq]
@[simp] theorem readEffect_pal (a : Word) (s : State) : (readEffect a s).pal = s.pal := by rw [readEffect_eq]
@[simp] theorem readEffect_nmiPending (a : Word) (s : State) : (readEffect a s).nmiPending = s.nmiPending := by rw [readEffect_eq]

theorem readEffect_plain {a : Word} (h : a ≠ 0x2002#16) (s : State) : readEffect a s = s.setLastRd a := by
  simp [readEffect_eq, h, State.setLastRd]

theorem read8_of_value {a : Word} {s : State} {v : Byte} (h : busValue a s = .ok v) :
    read8 a s = .ok (v, readEffect a s) := by simp [read8, h]

theorem read8_hole {a : Word} (h : Hole a) (s : State) : read8 a s = .error .ramOutOfRange := by
  simp [read8, busValue_hole h]

/-- What the success of a bus read says. -/
theorem read8_eq_ok {a : Word} {s t : State} {v : Byte} :
    read8 a s = .ok (v, t) ↔ busValue a s = .ok v ∧ t = readEffect a s := by
  unfold read8
  cases busValue a s <;> simp [eq_comm]

theorem read8_ram {a : Word} (h : a.toNat < 0x0800) (s : State) :
    read8 a s = .ok (s.ram.read a.toNat, s.setLastRd a) := by
  have ne : a ≠ 0x2002#16 := fun e => by subst e; simp at h
  rw [read8_of_value (busValue_ram h s), readEffect_plain ne]

theorem read8_prgHi {a : Word} (h : 0xC000 ≤ a.toNat) (s : State) :
    read8 a s = .ok (s.prgHi.read (a.toNat - 0xC000), s.setLastRd a) := by
  have ne : a ≠ 0x2002#16 := fun e => by subst e; simp at h
  rw [read8_of_value (busValue_prgHi h s), readEffect_plain ne]

/-- A word read gives the two bytes, low first, and leaves `LAST_RD` at the second (R72). -/
theorem read16_eq_ok {a : Word} {s t : State} {w : Word} :
    read16 a s = .ok (w, t) ↔
      ∃ lo hi, busValue a s = .ok lo ∧ busValue (a + 1#16) (readEffect a s) = .ok hi ∧
        w = mkWord hi lo ∧ t = readEffect (a + 1#16) (readEffect a s) := by
  unfold read16 read8
  cases h : busValue a s with
  | error e => simp
  | ok lo =>
    cases h' : busValue (a + 1#16) (readEffect a s) with
    | error e => simp [h']
    | ok hi =>
      simp only [ok_bind, h', Except.ok.injEq, Prod.mk.injEq]
      constructor
      · rintro ⟨rfl, rfl⟩; exact ⟨lo, hi, rfl, rfl, rfl, rfl⟩
      · rintro ⟨_, _, rfl, rfl, rfl, rfl⟩; exact ⟨rfl, rfl⟩

theorem toNat_zext (d : Byte) : (d.setWidth 16).toNat = d.toNat := by
  simp only [BitVec.toNat_setWidth]; omega

/-- A zero-page word read never fails; the high byte's cell wraps inside the page (R73). -/
theorem read16ZP_eq (z : Byte) (s : State) :
    read16ZP z s = .ok (mkWord (s.ram.read (z + 1#8).toNat) (s.ram.read z.toNat),
      s.setLastRd ((z + 1#8).setWidth 16)) := by
  unfold read16ZP
  rw [read8_ram (by rw [toNat_zext]; omega)]
  simp only [ok_bind]
  rw [read8_ram (by rw [toNat_zext]; omega)]
  simp only [ok_bind, toNat_zext, State.setLastRd_ram]
  rfl

theorem write8_ram {a : Word} (h : a.toNat < 0x0800) (v : Byte) (s : State) :
    write8 a v s = .ok ((s.setLastWr a).setRam (s.ram.write a.toNat v)) := by
  simp [write8, regionOf_ram (a := a) (by omega), Config.ramSize, h]

theorem write8_hole {a : Word} (h : Hole a) (v : Byte) (s : State) : write8 a v s = .error .ramOutOfRange := by
  have : ¬ a.toNat < 0x0800 := by have := h.1; omega
  simp only [write8, regionOf_ram (a := a) (by omega), Config.ramSize, this, if_false]

theorem write8_io {a : Word} (h : 0x2000 ≤ a.toNat) (h' : a.toNat < 0x4020) (v : Byte) (s : State) :
    write8 a v s = ioWrite a v (s.setLastWr a) := by
  simp [write8, regionOf_io h h']

theorem write8_expansion {a : Word} (h : 0x4020 ≤ a.toNat) (v : Byte) (s : State) :
    write8 a v s = .ok (s.setLastWr a) := by
  by_cases h1 : a.toNat < 0x8000
  · simp [write8, regionOf_expansion h h1]
  by_cases h2 : a.toNat < 0xC000
  · simp [write8, regionOf_prgLo (a := a) (by omega) h2]
  · simp [write8, regionOf_prgHi (a := a) (by omega)]

/-- Everything a bus write can do (R71, R80 to R96): it always records the address; beside that it stores one RAM
byte, or drives one port, or does nothing. -/
theorem write8_cases {a : Word} {v : Byte} {s t : State} (h : write8 a v s = .ok t) :
    (a.toNat < 0x0800 ∧ t = (s.setLastWr a).setRam (s.ram.write a.toNat v)) ∨
    (0x2000 ≤ a.toNat ∧ t = s.setLastWr a) ∨
    (a = 0x2000#16 ∧ t = (s.setLastWr a).setPpuctrl v) ∨
    (a = 0x2001#16 ∧ t = (s.setLastWr a).setPpumask v) ∨
    (a = 0x2006#16 ∧ t = writeVaddr v (s.setLastWr a)) ∨
    (a = 0x2007#16 ∧ writeVdata v (s.setLastWr a) = .ok t) ∨
    (a = 0x4014#16 ∧ v.toNat * 0x100 + 0xFF < 0x0800 ∧
      t = (s.setLastWr a).setOam (s.ram.window (v.toNat * 0x100) 0x100)) := by
  by_cases h1 : a.toNat < 0x0800
  · rw [write8_ram h1] at h; exact .inl ⟨h1, (Except.ok.inj h).symm⟩
  right
  by_cases h2 : a.toNat < 0x2000
  · rw [write8_hole (a := a) (by omega)] at h; cases h
  by_cases h3 : a.toNat < 0x4020
  · rw [write8_io (by omega) h3] at h
    unfold ioWrite at h
    simp only [Config.portCtrl, Config.portMask, Config.portOamAddr, Config.portOamData, Config.portVaddr,
      Config.portVdata, Config.portDma] at h
    split at h
    · exact .inr (.inl ⟨‹_›, (Except.ok.inj h).symm⟩)
    split at h
    · exact .inr (.inr (.inl ⟨‹_›, (Except.ok.inj h).symm⟩))
    split at h
    · exact .inl ⟨by omega, (Except.ok.inj h).symm⟩
    split at h
    · exact .inl ⟨by omega, (Except.ok.inj h).symm⟩
    split at h
    · exact .inr (.inr (.inr (.inl ⟨‹_›, (Except.ok.inj h).symm⟩)))
    split at h
    · exact .inr (.inr (.inr (.inr (.inl ⟨‹_›, h⟩))))
    split at h
    · unfold spriteDma at h
      simp only [Config.ramSize, Config.oamSize] at h
      split at h
      · cases h
      · exact .inr (.inr (.inr (.inr (.inr ⟨‹_›, by omega, (Except.ok.inj h).symm⟩))))
    · exact .inl ⟨by omega, (Except.ok.inj h).symm⟩
  · rw [write8_expansion (by omega)] at h
    exact .inl ⟨by omega, (Except.ok.inj h).symm⟩

/-- Everything a write of Picture-Memory can do (R111 to R113). -/
theorem pmemWrite_eq_ok {p : Word} {v : Byte} {s t : State} (h : pmemWrite p v s = .ok t) :
    (pmemDecode p).2 < (pmemDecode p).1.size ∧
      t = s.setPmem ((s.pmem (pmemDecode p).1).write (pmemDecode p).2 v) (pmemDecode p).1 := by
  unfold pmemWrite at h
  simp only at h
  split at h
  · exact ⟨‹_›, (Except.ok.inj h).symm⟩
  · cases h

/-- Everything a write of the data port can do (R95). -/
theorem writeVdata_eq_ok {v : Byte} {s t : State} (h : writeVdata v s = .ok t) :
    ∃ u, pmemWrite s.vaddr v s = .ok u ∧ t = u.setVaddr (u.vaddr + 1#16) := by
  obtain ⟨u, hu, e⟩ := bind_eq_ok.1 h
  exact ⟨u, hu, (Except.ok.inj e).symm⟩

end Sys2Proof.Machine
end

