-- ==== Sys2Proof/Laws/Flags.lean ====
section
/-! SUPPORT. The laws of the status byte: what a flag update does to each bit, and that no flag computation touches
the break and unused bits. -/

namespace Sys2Proof.Machine

/-- A flag update changes its own bit and no other. -/
theorem getLsbD_setFlag (k j : Nat) (b : Bool) (p : Byte) (hj : j < 8) :
    (setFlag k b p).getLsbD j = if j = k then b else p.getLsbD j := by
  unfold setFlag
  cases b <;> by_cases h : j = k
  · subst h; simp [hj]
  · rcases Nat.lt_or_gt_of_ne h with h' | h'
    · simp [h, h', hj]
    · have : j - k ≠ 0 := by omega
      have h2 : ¬ j < k := by omega
      simp [h, h2, hj, this]
  · subst h; simp [hj]
  · rcases Nat.lt_or_gt_of_ne h with h' | h'
    · simp [h, h', hj]
    · have : j - k ≠ 0 := by omega
      have h2 : ¬ j < k := by omega
      simp [h, h2, hj, this]

theorem getElem_setFlag (k j : Nat) (b : Bool) (p : Byte) (hj : j < 8) :
    (setFlag k b p)[j] = if j = k then b else p[j] := by
  have := getLsbD_setFlag k j b p hj
  simpa [BitVec.getLsbD_eq_getElem hj] using this

@[simp] theorem getC_setZN (v p : Byte) : getC (setZN v p) = getC p := by
  simp [setZN, setN, setZ, getC, getElem_setFlag]
@[simp] theorem getZ_setZN (v p : Byte) : getZ (setZN v p) = (v == 0x00#8) := by
  simp [setZN, setN, setZ, getZ, getElem_setFlag]
@[simp] theorem getI_setZN (v p : Byte) : getI (setZN v p) = getI p := by
  simp [setZN, setN, setZ, getI, getElem_setFlag]
@[simp] theorem getD_setZN (v p : Byte) : getD (setZN v p) = getD p := by
  simp [setZN, setN, setZ, getD, getElem_setFlag]
@[simp] theorem getV_setZN (v p : Byte) : getV (setZN v p) = getV p := by
  simp [setZN, setN, setZ, getV, getElem_setFlag]
@[simp] theorem getN_setZN (v p : Byte) : getN (setZN v p) = v.getLsbD 7 := by
  simp [setZN, setN, setZ, getN, getElem_setFlag]

@[simp] theorem getC_setC (b : Bool) (p : Byte) : getC (setC b p) = b := by
  simp [setC, getC, getElem_setFlag]
@[simp] theorem getV_setV (b : Bool) (p : Byte) : getV (setV b p) = b := by
  simp [setV, getV, getElem_setFlag]
@[simp] theorem getC_setV (b : Bool) (p : Byte) : getC (setV b p) = getC p := by
  simp [setV, getC, getElem_setFlag]
@[simp] theorem getV_setC (b : Bool) (p : Byte) : getV (setC b p) = getV p := by
  simp [setC, getV, getElem_setFlag]

/-- The break and unused bits of a status byte (`10_state.md` R28). -/
def keptBits (p : Byte) : Byte := p &&& 0x30#8

theorem getLsbD_keptBits (p : Byte) (j : Nat) :
    (keptBits p).getLsbD j = (p.getLsbD j && (j == 4 || j == 5)) := by
  unfold keptBits
  rw [BitVec.getLsbD_and]
  by_cases h : j < 8
  · have : j = 0 ∨ j = 1 ∨ j = 2 ∨ j = 3 ∨ j = 4 ∨ j = 5 ∨ j = 6 ∨ j = 7 := by omega
    rcases this with rfl | rfl | rfl | rfl | rfl | rfl | rfl | rfl <;> simp
  · simp [BitVec.getLsbD_of_ge _ _ (Nat.le_of_not_lt h)]

theorem keptBits_eq_iff (p q : Byte) : keptBits p = keptBits q ↔ getB p = getB q ∧ getU p = getU q := by
  constructor
  · intro h
    have h4 := congrArg (BitVec.getLsbD · 4) h
    have h5 := congrArg (BitVec.getLsbD · 5) h
    simp only [getLsbD_keptBits] at h4 h5
    exact ⟨by simpa [getB] using h4, by simpa [getU] using h5⟩
  · rintro ⟨h4, h5⟩
    apply BitVec.eq_of_getLsbD_eq
    intro j _
    rw [getLsbD_keptBits, getLsbD_keptBits]
    by_cases e4 : j = 4
    · subst e4; simp [getB] at h4; simp [h4]
    · by_cases e5 : j = 5
      · subst e5; simp [getU] at h5; simp [h5]
      · have b4 : (j == 4) = false := beq_eq_false_iff_ne.2 e4
        have b5 : (j == 5) = false := beq_eq_false_iff_ne.2 e5
        rw [b4, b5]; simp

theorem keptBits_setFlag {k : Nat} (h4 : k ≠ 4) (h5 : k ≠ 5) (b : Bool) (p : Byte) :
    keptBits (setFlag k b p) = keptBits p := by
  rw [keptBits_eq_iff]
  have h4' : 4 ≠ k := fun e => h4 e.symm
  have h5' : 5 ≠ k := fun e => h5 e.symm
  exact ⟨by simp [getB, getElem_setFlag, h4'], by simp [getU, getElem_setFlag, h5']⟩

@[simp] theorem keptBits_setC (b : Bool) (p : Byte) : keptBits (setC b p) = keptBits p :=
  keptBits_setFlag (by decide) (by decide) b p
@[simp] theorem keptBits_setZ (b : Bool) (p : Byte) : keptBits (setZ b p) = keptBits p :=
  keptBits_setFlag (by decide) (by decide) b p
@[simp] theorem keptBits_setI (b : Bool) (p : Byte) : keptBits (setI b p) = keptBits p :=
  keptBits_setFlag (by decide) (by decide) b p
@[simp] theorem keptBits_setD (b : Bool) (p : Byte) : keptBits (setD b p) = keptBits p :=
  keptBits_setFlag (by decide) (by decide) b p
@[simp] theorem keptBits_setV (b : Bool) (p : Byte) : keptBits (setV b p) = keptBits p :=
  keptBits_setFlag (by decide) (by decide) b p
@[simp] theorem keptBits_setN (b : Bool) (p : Byte) : keptBits (setN b p) = keptBits p :=
  keptBits_setFlag (by decide) (by decide) b p
@[simp] theorem keptBits_setZN (v p : Byte) : keptBits (setZN v p) = keptBits p := by simp [setZN]
@[simp] theorem keptBits_mergeStatus (p v : Byte) : keptBits (mergeStatus p v) = keptBits p := by
  unfold keptBits mergeStatus
  ext i hi
  have : i = 0 ∨ i = 1 ∨ i = 2 ∨ i = 3 ∨ i = 4 ∨ i = 5 ∨ i = 6 ∨ i = 7 := by omega
  rcases this with rfl | rfl | rfl | rfl | rfl | rfl | rfl | rfl <;> simp
@[simp] theorem keptBits_adc (a m p : Byte) : keptBits (adc a m p).2 = keptBits p := by simp [adc]
@[simp] theorem keptBits_sbc (a m p : Byte) : keptBits (sbc a m p).2 = keptBits p := by simp [sbc]
@[simp] theorem keptBits_compareFlags (r m p : Byte) : keptBits (compareFlags r m p) = keptBits p := by
  simp [compareFlags]
@[simp] theorem keptBits_bitTest (a m p : Byte) : keptBits (bitTest a m p) = keptBits p := by simp [bitTest]
@[simp] theorem keptBits_inc (v p : Byte) : keptBits (inc v p).2 = keptBits p := by simp [inc]
@[simp] theorem keptBits_dec (v p : Byte) : keptBits (dec v p).2 = keptBits p := by simp [dec]
@[simp] theorem keptBits_asl (v p : Byte) : keptBits (asl v p).2 = keptBits p := by simp [asl]
@[simp] theorem keptBits_lsr (v p : Byte) : keptBits (lsr v p).2 = keptBits p := by simp [lsr]
@[simp] theorem keptBits_rol (v p : Byte) : keptBits (rol v p).2 = keptBits p := by simp [rol]
@[simp] theorem keptBits_ror (v p : Byte) : keptBits (ror v p).2 = keptBits p := by simp [ror]

end Sys2Proof.Machine
end

