-- ==== Sys2Proof/Laws/Ops.lean ====
section
/-! SUPPORT. The laws of the named operations: the stack never fails, entering a handler and returning from one give
one next state, and what each memory mode resolves to. -/

namespace Sys2Proof.Machine

@[simp] theorem finish_ok (s : State) : finish (.ok s) = .next s := rfl

@[simp] theorem finish_error (r : Refusal) : finish (.error r) = .refused r := rfl

@[simp] theorem finish_eq_next {x : Except Refusal State} {t : State} : finish x = .next t ↔ x = .ok t := by
  cases x <;> simp [finish]

@[simp] theorem finish_ne_fault {x : Except Refusal State} {f : Fault} : finish x ≠ .fault f := by
  cases x <;> simp [finish]

@[simp] theorem mkWord_hi_lo (w : Word) : mkWord (hiByte w) (loByte w) = w := by
  unfold mkWord hiByte loByte
  apply BitVec.eq_of_getLsbD_eq
  intro i hi
  rw [BitVec.getLsbD_append]
  by_cases h : i < 8
  · simp [h]
  · have e : 8 + (i - 8) = i := by omega
    have h8 : i - 8 < 8 := by omega
    simp [h, h8, e]

@[simp] theorem hiByte_mkWord (h l : Byte) : hiByte (mkWord h l) = h := by
  unfold mkWord hiByte
  apply BitVec.eq_of_getLsbD_eq
  intro i hi
  have e' : 8 + i - 8 = i := by omega
  rw [BitVec.getLsbD_extractLsb', BitVec.getLsbD_append]
  simp [hi, e']

@[simp] theorem loByte_mkWord (h l : Byte) : loByte (mkWord h l) = l := by
  unfold mkWord loByte
  apply BitVec.eq_of_getLsbD_eq
  intro i hi
  rw [BitVec.getLsbD_extractLsb', BitVec.getLsbD_append]
  simp [hi]

/-- The stack cell's offset in RAM (`10_state.md` R21, R30). -/
theorem toNat_stackAddr (sp : Byte) : (stackAddr sp).toNat = 0x0100 + sp.toNat := by
  have := sp.isLt
  simp only [stackAddr, Config.stackBase, BitVec.toNat_add, toNat_zext, BitVec.toNat_ofNat]
  omega

theorem stackAddr_lt (sp : Byte) : (stackAddr sp).toNat < 0x0800 := by
  have := sp.isLt
  rw [toNat_stackAddr]; omega

/-- `Push` gives one next state whatever the stack pointer is (R30). -/
theorem push_eq (v : Byte) (s : State) :
    push v s = .ok (((s.setLastWr (stackAddr s.sp)).setRam (s.ram.write (0x0100 + s.sp.toNat) v)).setSp
      (s.sp - 1#8)) := by
  simp [push, write8_ram (stackAddr_lt s.sp), toNat_stackAddr]

/-- `Pop` gives one value and one next state whatever the stack pointer is (R31). -/
theorem pop_eq (s : State) :
    pop s = .ok (s.ram.read (0x0100 + (s.sp + 1#8).toNat),
      (s.setSp (s.sp + 1#8)).setLastRd (stackAddr (s.sp + 1#8))) := by
  simp [pop, read8_ram (stackAddr_lt _), toNat_stackAddr]

/-- RAM after the three pushes of a handler entry, from stack pointer `sp`. -/
def pushed3 (ram : Memory) (sp b1 b2 b3 : Byte) : Memory :=
  ((ram.write (0x0100 + sp.toNat) b1).write (0x0100 + (sp - 1#8).toNat) b2).write
    (0x0100 + (sp - 1#8 - 1#8).toNat) b3

/-- Entering a handler through a vector in the upper PRG bank gives one next state (`60_exceptions.md` R307,
`45_stack_flags_system.md` R272). -/
theorem enterHandler_eq (ret : Word) (status newP : Byte) {vec : Word} (h : 0xC000 ≤ vec.toNat)
    (h' : 0xC000 ≤ (vec + 1#16).toNat) (s : State) :
    enterHandler ret status newP vec s =
      .ok { s with
        ram := pushed3 s.ram s.sp (hiByte ret) (loByte ret) status
        sp := s.sp - 1#8 - 1#8 - 1#8
        p := newP
        lastWr := stackAddr (s.sp - 1#8 - 1#8)
        lastRd := vec + 1#16
        pc := mkWord (s.prgHi.read ((vec + 1#16).toNat - 0xC000)) (s.prgHi.read (vec.toNat - 0xC000)) } := by
  simp only [enterHandler, push_eq, ok_bind, read16, read8_prgHi h, read8_prgHi h', Except.ok.injEq]
  apply State.ext <;> simp [pushed3]

/-- Returning from a handler gives one next state (R273). -/
theorem returnFromHandler_eq (s : State) :
    returnFromHandler s =
      .ok { s with
        sp := s.sp + 1#8 + 1#8 + 1#8
        p := mergeStatus s.p (s.ram.read (0x0100 + (s.sp + 1#8).toNat))
        lastRd := stackAddr (s.sp + 1#8 + 1#8 + 1#8)
        pc := mkWord (s.ram.read (0x0100 + (s.sp + 1#8 + 1#8 + 1#8).toNat))
          (s.ram.read (0x0100 + (s.sp + 1#8 + 1#8).toNat)) } := by
  simp only [returnFromHandler, pop_eq, ok_bind, Except.ok.injEq]
  apply State.ext <;> simp

/-- The NMI prelude never fails (R306, R307). -/
theorem nmiPrelude_ok (s : State) : ∃ t, nmiPrelude s = .ok t := by
  unfold nmiPrelude
  split
  · exact ⟨_, enterHandler_eq _ _ _ (by decide) (by decide) _⟩
  · exact ⟨s, rfl⟩

/-- What resolving a memory mode changes: `LAST_RD` of the pointer reads, and for an indirect pointer the status
port's bit 7 when the pointer lies there. -/
theorem effAddr_eq_ok {m : Mem} {s t : State} {ea : Word} (h : effAddr m s = .ok (ea, t)) :
    t = s ∨ (∃ a, t = s.setLastRd a) ∨ ∃ w, m = .ind w ∧ t = readEffect (samePageNext w) (readEffect w s) := by
  cases m with
  | zp d => simp [effAddr] at h; exact .inl h.2.symm
  | zpx d => simp [effAddr] at h; exact .inl h.2.symm
  | zpy d => simp [effAddr] at h; exact .inl h.2.symm
  | abs w => simp [effAddr] at h; exact .inl h.2.symm
  | abx w => simp [effAddr] at h; exact .inl h.2.symm
  | aby w => simp [effAddr] at h; exact .inl h.2.symm
  | izx d =>
    simp [effAddr, read16ZP_eq] at h
    exact .inr (.inl ⟨_, h.2.symm⟩)
  | izy d =>
    simp [effAddr, read16ZP_eq] at h
    exact .inr (.inl ⟨_, h.2.symm⟩)
  | ind w =>
    obtain ⟨⟨lo, s1⟩, h1, h⟩ := bind_eq_ok.1 h
    obtain ⟨⟨hi, s2⟩, h2, h⟩ := bind_eq_ok.1 h
    obtain ⟨-, rfl⟩ := read8_eq_ok.1 h1
    obtain ⟨-, rfl⟩ := read8_eq_ok.1 h2
    simp at h
    exact .inr (.inr ⟨w, rfl, h.2.symm⟩)

/-- A mode other than `IND` always resolves (R165 to R170, R172, R173). -/
theorem effAddr_ok {m : Mem} (h : ∀ w, m ≠ .ind w) (s : State) : ∃ ea t, effAddr m s = .ok (ea, t) := by
  cases m with
  | ind w => exact absurd rfl (h w)
  | izx d => exact ⟨_, _, read16ZP_eq _ _⟩
  | izy d => exact ⟨_, _, by rw [effAddr, read16ZP_eq, ok_bind]⟩
  | _ => exact ⟨_, _, rfl⟩

end Sys2Proof.Machine
end

