-- ==== Sys2Proof/Laws/Classes.lean ====
section
/-! SUPPORT. The access classes of `40_addressing_modes.md` R175, said once: which operation a mnemonic of a class
performs, that `exec` is that class applied to the operand, and everything a class can do. -/

namespace Sys2Proof.Machine

/-- The operation of a mnemonic that reads its operand. -/
def readOp : Mnemonic → Option (Byte → State → State)
  | .LDA => some loadA
  | .LDX => some loadX
  | .LDY => some loadY
  | .ADC => some addOp
  | .SBC => some subOp
  | .AND => some andOp
  | .ORA => some oraOp
  | .EOR => some eorOp
  | .BIT => some bitOp
  | .CMP => some cmpOp
  | .CPX => some cpxOp
  | .CPY => some cpyOp
  | _ => none

/-- The register a store mnemonic writes out. -/
def storedReg : Mnemonic → Option (State → Byte)
  | .STA => some State.a
  | .STX => some State.x
  | .STY => some State.y
  | _ => none

/-- The operation of a mnemonic that reads, modifies and writes its operand. -/
def rmwOp : Mnemonic → Option (Byte → Byte → Byte × Byte)
  | .INC => some inc
  | .DEC => some dec
  | .ASL => some asl
  | .LSR => some lsr
  | .ROL => some rol
  | .ROR => some ror
  | _ => none

theorem exec_read_immediate {i : Instr} {f : Byte → State → State} {v : Byte} (h : readOp i.mnemonic = some f)
    (ho : operandOf i = .immediate v) (s : State) : exec i s = .next (f v s) := by
  cases i <;> cases ho <;> cases h <;> rfl

theorem exec_read_memory {i : Instr} {f : Byte → State → State} {m : Mem} (h : readOp i.mnemonic = some f)
    (ho : operandOf i = .memory m) (s : State) : exec i s = readClass m f s := by
  cases i <;> cases ho <;> cases h <;> rfl

theorem exec_store {i : Instr} {r : State → Byte} {m : Mem} (h : storedReg i.mnemonic = some r)
    (ho : operandOf i = .memory m) (s : State) : exec i s = writeClass m (r s) s := by
  cases i <;> cases ho <;> cases h <;> rfl

theorem exec_rmw_memory {i : Instr} {f : Byte → Byte → Byte × Byte} {m : Mem} (h : rmwOp i.mnemonic = some f)
    (ho : operandOf i = .memory m) (s : State) : exec i s = rmwClass m f s := by
  cases i <;> cases ho <;> cases h <;> rfl

theorem exec_rmw_accumulator {i : Instr} {f : Byte → Byte → Byte × Byte} (h : rmwOp i.mnemonic = some f)
    (ho : operandOf i = .accumulator) (s : State) : exec i s = .next (rmwA f s) := by
  cases i <;> cases ho <;> cases h <;> rfl

/-- Everything a read instruction can do. -/
theorem readClass_eq_next {m : Mem} {f : Byte → State → State} {s t : State} :
    readClass m f s = .next t ↔
      ∃ ea u v, effAddr m s = .ok (ea, u) ∧ busValue ea u = .ok v ∧ t = f v (readEffect ea u) := by
  constructor
  · intro h
    obtain ⟨⟨ea, u⟩, h1, h⟩ := bind_eq_ok.1 (finish_eq_next.1 h)
    obtain ⟨⟨v, u'⟩, h2, h⟩ := bind_eq_ok.1 h
    obtain ⟨h3, rfl⟩ := read8_eq_ok.1 h2
    cases h
    exact ⟨_, _, _, h1, h3, rfl⟩
  · rintro ⟨ea, u, v, h1, h2, rfl⟩
    simp [readClass, h1, read8_of_value h2]

/-- Everything a store instruction can do. -/
theorem writeClass_eq_next {m : Mem} {v : Byte} {s t : State} :
    writeClass m v s = .next t ↔ ∃ ea u, effAddr m s = .ok (ea, u) ∧ write8 ea v u = .ok t := by
  constructor
  · intro h
    obtain ⟨⟨ea, u⟩, h1, h⟩ := bind_eq_ok.1 (finish_eq_next.1 h)
    exact ⟨_, _, h1, h⟩
  · rintro ⟨ea, u, h1, h2⟩
    simp [writeClass, h1, h2]

/-- Resolving a mode changes no CPU register. -/
theorem effAddr_p {m : Mem} {s t : State} {ea : Word} (h : effAddr m s = .ok (ea, t)) : t.p = s.p := by
  rcases effAddr_eq_ok h with rfl | ⟨a, rfl⟩ | ⟨w, -, rfl⟩ <;> simp

/-- Everything a read-modify-write instruction can do: one read and one write of the same address, then the flags. -/
theorem rmwClass_eq_next {m : Mem} {f : Byte → Byte → Byte × Byte} {s t : State} :
    rmwClass m f s = .next t ↔
      ∃ ea u v w, effAddr m s = .ok (ea, u) ∧ busValue ea u = .ok v ∧
        write8 ea (f v s.p).1 (readEffect ea u) = .ok w ∧ t = w.setP (f v s.p).2 := by
  constructor
  · intro h
    obtain ⟨⟨ea, u⟩, h1, h⟩ := bind_eq_ok.1 (finish_eq_next.1 h)
    obtain ⟨⟨v, u'⟩, h2, h⟩ := bind_eq_ok.1 h
    obtain ⟨w, h3, h⟩ := bind_eq_ok.1 h
    obtain ⟨h4, rfl⟩ := read8_eq_ok.1 h2
    cases h
    simp only [readEffect_p, effAddr_p h1] at h3 ⊢
    exact ⟨_, _, _, _, h1, h4, h3, rfl⟩
  · rintro ⟨ea, u, v, w, h1, h2, h3, rfl⟩
    simp [rmwClass, h1, read8_of_value h2, effAddr_p h1, h3]

/-- A jump goes to its effective address. -/
theorem jumpTo_eq_next {m : Mem} {s t : State} :
    jumpTo m s = .next t ↔ ∃ ea u, effAddr m s = .ok (ea, u) ∧ t = u.setPc ea := by
  constructor
  · intro h
    obtain ⟨⟨ea, u⟩, h1, h⟩ := bind_eq_ok.1 (finish_eq_next.1 h)
    cases h
    exact ⟨_, _, h1, rfl⟩
  · rintro ⟨ea, u, h1, rfl⟩
    simp [jumpTo, h1]

/-- JSR gives one next state (R241). -/
theorem callSub_eq (w : Word) (s : State) :
    callSub w s =
      .next { s with
        ram := (s.ram.write (0x0100 + s.sp.toNat) (hiByte (s.pc - 1#16))).write (0x0100 + (s.sp - 1#8).toNat)
          (loByte (s.pc - 1#16))
        sp := s.sp - 1#8 - 1#8
        lastWr := stackAddr (s.sp - 1#8)
        pc := w } := by
  simp only [callSub, push_eq, ok_bind, finish_ok, Host.Outcome.next.injEq]
  apply State.ext <;> simp

/-- RTS gives one next state (R242). -/
theorem returnSub_eq (s : State) :
    returnSub s =
      .next { s with
        sp := s.sp + 1#8 + 1#8
        lastRd := stackAddr (s.sp + 1#8 + 1#8)
        pc := mkWord (s.ram.read (0x0100 + (s.sp + 1#8 + 1#8).toNat)) (s.ram.read (0x0100 + (s.sp + 1#8).toNat)) +
          1#16 } := by
  simp only [returnSub, pop_eq, ok_bind, finish_ok, Host.Outcome.next.injEq]
  apply State.ext <;> simp

/-- Where Picture-Memory exists, as the range decode says it (`20_memory.md` R112, R113). -/
theorem pictureMemoryExists_iff (p : Word) : PictureMemoryExists p ↔ (pmemDecode p).2 < (pmemDecode p).1.size := by
  unfold pmemDecode
  split_ifs <;> simp [PRegion.size, Config.ptSize, Config.ntSize, Config.palSize, PictureMemoryExists] <;> omega

/-- The bus takes a write exactly where `WriteAccepted` says so. -/
theorem write8_ok_iff (a : Word) (v : Byte) (s : State) : (∃ t, write8 a v s = .ok t) ↔ WriteAccepted a v s := by
  constructor
  · rintro ⟨t, h⟩
    refine ⟨fun hh => by simp [write8_hole hh] at h, fun e => ?_, fun e => ?_⟩
    · subst e
      rw [write8_io (by decide) (by decide)] at h
      obtain ⟨u, hu, -⟩ := writeVdata_eq_ok (v := v) (s := s.setLastWr 0x2007#16) (t := t) h
      exact (pictureMemoryExists_iff _).2 (pmemWrite_eq_ok hu).1
    · subst e
      rw [write8_io (by decide) (by decide)] at h
      have h : spriteDma v (s.setLastWr 0x4014#16) = .ok t := h
      unfold spriteDma at h
      simp only [Config.ramSize] at h
      split at h
      · cases h
      · omega
  · rintro ⟨hh, hv, hd⟩
    by_cases h1 : a.toNat < 0x0800
    · exact ⟨_, write8_ram h1 v s⟩
    have h2 : 0x2000 ≤ a.toNat := by by_contra h; exact hh ⟨by omega, by omega⟩
    by_cases h3 : a.toNat < 0x4020
    · rw [write8_io h2 h3]
      unfold ioWrite
      split_ifs with _ _ _ _ _ e e
      all_goals first | exact ⟨_, rfl⟩ | skip
      · have : (pmemDecode (s.setLastWr a).vaddr).2 < (pmemDecode (s.setLastWr a).vaddr).1.size :=
          (pictureMemoryExists_iff _).1 (hv e)
        exact ⟨_, by simp only [writeVdata, pmemWrite]; rw [if_pos this]; rfl⟩
      · have := hd e
        refine ⟨_, by unfold spriteDma; simp only [Config.ramSize]; rw [if_neg (by omega)]⟩
    · exact ⟨_, write8_expansion (by omega) v s⟩

/-- When a snapshot window has contents, and what they are (`60_exceptions.md` R323, log entry 18). -/
theorem snapshotWindow_eq_some_iff {arr : SnapArray} {base n : Nat} {s : State} {bs : List Byte} :
    snapshotWindow arr base n s = some bs ↔ base + n ≤ snapSize arr ∧ bs.length = n ∧
      ∀ k (h : k < bs.length), bs[k] = (snapMemory s arr).read (base + k) := by
  unfold snapshotWindow
  split
  · rename_i hb
    simp only [Option.some.injEq, hb, true_and]
    constructor
    · rintro rfl
      simp
    · rintro ⟨rfl, hk⟩
      exact List.ext_getElem (by simp) fun k _ h => by simp [hk k h]
  · rename_i hb
    simp [hb]

end Sys2Proof.Machine
end

