-- ==== Sys2Proof/Laws/Exec.lean ====
section
/-! SUPPORT. What a step can do, said once. Every instruction is made of register changes that keep the break and
unused bits, bus reads and bus writes; so a relation between states that those keep holds between the states
before and after any instruction, fetch or step (`Closed.exec`, `Closed.fetchInstr`, `Closed.step`). -/

namespace Sys2Proof.Machine

/-- `t` is `s` with other CPU registers; the break and unused bits of `P` are the same. -/
def RegStep (s t : State) : Prop :=
  ∃ a x y sp pc p, keptBits p = keptBits s.p ∧
    t = { s with a := a, x := x, y := y, sp := sp, pc := pc, p := p }

/-- A relation that every elementary action of an instruction keeps. -/
structure Closed (R : State → State → Prop) : Prop where
  refl : ∀ s, R s s
  trans : ∀ {s t u}, R s t → R t u → R s u
  regs : ∀ {s t}, RegStep s t → R s t
  read : ∀ a s, R s (readEffect a s)
  write : ∀ {a v s t}, write8 a v s = .ok t → R s t

variable {R : State → State → Prop}

theorem regStep_setPc (s : State) (w : Word) : RegStep s (s.setPc w) := ⟨_, _, _, _, _, _, rfl, rfl⟩
theorem regStep_setSp (s : State) (b : Byte) : RegStep s (s.setSp b) := ⟨_, _, _, _, _, _, rfl, rfl⟩
theorem regStep_setP {s : State} {p : Byte} (h : keptBits p = keptBits s.p) : RegStep s (s.setP p) :=
  ⟨_, _, _, _, _, _, h, rfl⟩
theorem regStep_setAP {s : State} {rp : Byte × Byte} (h : keptBits rp.2 = keptBits s.p) :
    RegStep s (setAP rp s) := ⟨_, _, _, _, _, _, h, rfl⟩
theorem regStep_setXP {s : State} {rp : Byte × Byte} (h : keptBits rp.2 = keptBits s.p) :
    RegStep s (setXP rp s) := ⟨_, _, _, _, _, _, h, rfl⟩
theorem regStep_setYP {s : State} {rp : Byte × Byte} (h : keptBits rp.2 = keptBits s.p) :
    RegStep s (setYP rp s) := ⟨_, _, _, _, _, _, h, rfl⟩
theorem regStep_loadA (v : Byte) (s : State) : RegStep s (loadA v s) := ⟨_, _, _, _, _, _, by simp, rfl⟩
theorem regStep_loadX (v : Byte) (s : State) : RegStep s (loadX v s) := ⟨_, _, _, _, _, _, by simp, rfl⟩
theorem regStep_loadY (v : Byte) (s : State) : RegStep s (loadY v s) := ⟨_, _, _, _, _, _, by simp, rfl⟩
theorem regStep_addOp (v : Byte) (s : State) : RegStep s (addOp v s) := regStep_setAP (by simp)
theorem regStep_subOp (v : Byte) (s : State) : RegStep s (subOp v s) := regStep_setAP (by simp)
theorem regStep_andOp (v : Byte) (s : State) : RegStep s (andOp v s) := regStep_setAP (by simp)
theorem regStep_oraOp (v : Byte) (s : State) : RegStep s (oraOp v s) := regStep_setAP (by simp)
theorem regStep_eorOp (v : Byte) (s : State) : RegStep s (eorOp v s) := regStep_setAP (by simp)
theorem regStep_bitOp (v : Byte) (s : State) : RegStep s (bitOp v s) := regStep_setP (by simp)
theorem regStep_cmpOp (v : Byte) (s : State) : RegStep s (cmpOp v s) := regStep_setP (by simp)
theorem regStep_cpxOp (v : Byte) (s : State) : RegStep s (cpxOp v s) := regStep_setP (by simp)
theorem regStep_cpyOp (v : Byte) (s : State) : RegStep s (cpyOp v s) := regStep_setP (by simp)
theorem regStep_pulledP (v : Byte) (s : State) : RegStep s (s.setP (mergeStatus s.p v)) := regStep_setP (by simp)
theorem regStep_branch (c : Bool) (d : Byte) (s : State) : RegStep s (branch c d s) := by
  unfold branch; split
  · exact regStep_setPc _ _
  · exact ⟨_, _, _, _, _, _, rfl, rfl⟩
theorem regStep_rmwA {f : Byte → Byte → Byte × Byte} (hf : ∀ v p, keptBits (f v p).2 = keptBits p) (s : State) :
    RegStep s (rmwA f s) := ⟨_, _, _, _, _, _, hf _ _, rfl⟩

namespace Closed

/-- A successful bus read. -/
theorem read8 (hR : Closed R) {a : Word} {s t : State} {v : Byte}
    (h : Sys2Proof.Machine.read8 a s = .ok (v, t)) : R s t := by
  obtain ⟨-, rfl⟩ := read8_eq_ok.1 h
  exact hR.read a s

theorem read16 (hR : Closed R) {a w : Word} {s t : State}
    (h : Sys2Proof.Machine.read16 a s = .ok (w, t)) : R s t := by
  obtain ⟨_, _, -, -, -, rfl⟩ := read16_eq_ok.1 h
  exact hR.trans (hR.read _ _) (hR.read _ _)

theorem setLastRd (hR : Closed R) (d : Byte) (s : State) : R s (s.setLastRd (d.setWidth 16)) := by
  have := hR.read (d.setWidth 16) s
  rwa [readEffect_plain (fun e => by
    have := congrArg BitVec.toNat e
    rw [toNat_zext] at this
    have := d.isLt
    simp at *; omega)] at this

theorem read16ZP (hR : Closed R) {z : Byte} {w : Word} {s t : State}
    (h : Sys2Proof.Machine.read16ZP z s = .ok (w, t)) : R s t := by
  rw [read16ZP_eq] at h
  cases h
  exact hR.setLastRd _ _

theorem push (hR : Closed R) {v : Byte} {s t : State} (h : Sys2Proof.Machine.push v s = .ok t) : R s t := by
  obtain ⟨u, hu, e⟩ := bind_eq_ok.1 h
  cases e
  exact hR.trans (hR.write hu) (hR.regs (regStep_setSp _ _))

theorem pop (hR : Closed R) {v : Byte} {s t : State} (h : Sys2Proof.Machine.pop s = .ok (v, t)) : R s t :=
  hR.trans (hR.regs (regStep_setSp _ _)) (hR.read8 h)

theorem effAddr (hR : Closed R) {m : Mem} {ea : Word} {s t : State}
    (h : Sys2Proof.Machine.effAddr m s = .ok (ea, t)) : R s t := by
  cases m with
  | izx d => exact hR.read16ZP h
  | izy d =>
    obtain ⟨⟨b, u⟩, hu, e⟩ := bind_eq_ok.1 h
    cases e
    exact hR.read16ZP hu
  | ind w =>
    obtain ⟨⟨lo, s1⟩, h1, h⟩ := bind_eq_ok.1 h
    obtain ⟨⟨hi, s2⟩, h2, h⟩ := bind_eq_ok.1 h
    cases h
    exact hR.trans (hR.read8 h1) (hR.read8 h2)
  | _ => cases h; exact hR.refl _

theorem readClass (hR : Closed R) {m : Mem} {f : Byte → State → State} (hf : ∀ v s, RegStep s (f v s))
    {s t : State} (h : Sys2Proof.Machine.readClass m f s = .next t) : R s t := by
  obtain ⟨⟨ea, s1⟩, h1, h⟩ := bind_eq_ok.1 (finish_eq_next.1 h)
  obtain ⟨⟨v, s2⟩, h2, h⟩ := bind_eq_ok.1 h
  cases h
  exact hR.trans (hR.effAddr h1) (hR.trans (hR.read8 h2) (hR.regs (hf _ _)))

theorem writeClass (hR : Closed R) {m : Mem} {v : Byte} {s t : State}
    (h : Sys2Proof.Machine.writeClass m v s = .next t) : R s t := by
  obtain ⟨⟨ea, s1⟩, h1, h⟩ := bind_eq_ok.1 (finish_eq_next.1 h)
  exact hR.trans (hR.effAddr h1) (hR.write h)

theorem rmwClass (hR : Closed R) {m : Mem} {f : Byte → Byte → Byte × Byte}
    (hp : ∀ {a v} {s t : State}, write8 a v s = .ok t → t.p = s.p)
    (hf : ∀ v p, keptBits (f v p).2 = keptBits p) {s t : State}
    (h : Sys2Proof.Machine.rmwClass m f s = .next t) : R s t := by
  obtain ⟨⟨ea, s1⟩, h1, h⟩ := bind_eq_ok.1 (finish_eq_next.1 h)
  obtain ⟨⟨v, s2⟩, h2, h⟩ := bind_eq_ok.1 h
  obtain ⟨s3, h3, h⟩ := bind_eq_ok.1 h
  cases h
  refine hR.trans (hR.effAddr h1) (hR.trans (hR.read8 h2) (hR.trans (hR.write h3) (hR.regs (regStep_setP ?_))))
  rw [hf, hp h3]

theorem jumpTo (hR : Closed R) {m : Mem} {s t : State} (h : Sys2Proof.Machine.jumpTo m s = .next t) : R s t := by
  obtain ⟨⟨ea, s1⟩, h1, h⟩ := bind_eq_ok.1 (finish_eq_next.1 h)
  cases h
  exact hR.trans (hR.effAddr h1) (hR.regs (regStep_setPc _ _))

theorem callSub (hR : Closed R) {w : Word} {s t : State}
    (h : Sys2Proof.Machine.callSub w s = .next t) : R s t := by
  obtain ⟨s1, h1, h⟩ := bind_eq_ok.1 (finish_eq_next.1 h)
  obtain ⟨s2, h2, h⟩ := bind_eq_ok.1 h
  cases h
  exact hR.trans (hR.push h1) (hR.trans (hR.push h2) (hR.regs (regStep_setPc _ _)))

theorem returnSub (hR : Closed R) {s t : State} (h : Sys2Proof.Machine.returnSub s = .next t) : R s t := by
  obtain ⟨⟨lo, s1⟩, h1, h⟩ := bind_eq_ok.1 (finish_eq_next.1 h)
  obtain ⟨⟨hi, s2⟩, h2, h⟩ := bind_eq_ok.1 h
  cases h
  exact hR.trans (hR.pop h1) (hR.trans (hR.pop h2) (hR.regs (regStep_setPc _ _)))

theorem pushByte (hR : Closed R) {v : Byte} {s t : State}
    (h : Sys2Proof.Machine.pushByte v s = .next t) : R s t := hR.push (finish_eq_next.1 h)

theorem pullByte (hR : Closed R) {f : Byte → State → State} (hf : ∀ v s, RegStep s (f v s)) {s t : State}
    (h : Sys2Proof.Machine.pullByte f s = .next t) : R s t := by
  obtain ⟨⟨v, s1⟩, h1, h⟩ := bind_eq_ok.1 (finish_eq_next.1 h)
  cases h
  exact hR.trans (hR.pop h1) (hR.regs (hf _ _))

end Closed

/-- A bus write changes no CPU register and not the pending request. -/
theorem write8_registers {a : Word} {v : Byte} {s t : State} (h : write8 a v s = .ok t) :
    t.a = s.a ∧ t.x = s.x ∧ t.y = s.y ∧ t.sp = s.sp ∧ t.pc = s.pc ∧ t.p = s.p ∧ t.lastRd = s.lastRd ∧
      t.lastWr = a ∧ t.ppustatus = s.ppustatus ∧ t.prgLo = s.prgLo ∧ t.prgHi = s.prgHi ∧
      t.nmiPending = s.nmiPending := by
  rcases write8_cases h with ⟨-, rfl⟩ | ⟨-, rfl⟩ | ⟨-, rfl⟩ | ⟨-, rfl⟩ | ⟨-, rfl⟩ | ⟨-, h⟩ | ⟨-, -, rfl⟩
  · simp
  · simp
  · simp
  · simp
  · unfold writeVaddr; split <;> simp
  · obtain ⟨u, hu, rfl⟩ := writeVdata_eq_ok h
    obtain ⟨-, rfl⟩ := pmemWrite_eq_ok hu
    cases (pmemDecode (s.setLastWr a).vaddr).1 <;> simp [State.setPmem]
  · simp

theorem push_p {v : Byte} {s t : State} (h : push v s = .ok t) : t.p = s.p := by
  rw [push_eq, Except.ok.injEq] at h
  simp [← h]

/-- An instruction either gives a next state or is refused; it never faults. -/
theorem exec_eq_finish (i : Instr) (s : State) : ∃ x : Except Refusal State, exec i s = finish x := by
  cases i <;> first | exact ⟨.ok _, rfl⟩ | exact ⟨_, rfl⟩

theorem exec_ne_fault (i : Instr) (s : State) (f : Fault) : exec i s ≠ .fault f := by
  obtain ⟨x, hx⟩ := exec_eq_finish i s
  rw [hx]; exact finish_ne_fault

namespace Closed

theorem enterHandler (hR : Closed R) {ret : Word} {st p : Byte} {vec : Word} {s t : State}
    (hp : keptBits p = keptBits s.p)
    (h : Sys2Proof.Machine.enterHandler ret st p vec s = .ok t) : R s t := by
  obtain ⟨s1, h1, h⟩ := bind_eq_ok.1 h
  obtain ⟨s2, h2, h⟩ := bind_eq_ok.1 h
  obtain ⟨s3, h3, h⟩ := bind_eq_ok.1 h
  obtain ⟨⟨w, s4⟩, h4, h⟩ := bind_eq_ok.1 h
  cases h
  have e : s3.p = s.p := by rw [push_p h3, push_p h2, push_p h1]
  refine hR.trans (hR.push h1) (hR.trans (hR.push h2) (hR.trans (hR.push h3) (hR.trans
    (hR.regs (regStep_setP (by rw [e, hp]))) (hR.trans (hR.read16 h4) (hR.regs (regStep_setPc _ _))))))

theorem returnFromHandler (hR : Closed R) {s t : State}
    (h : Sys2Proof.Machine.returnFromHandler s = .ok t) : R s t := by
  obtain ⟨⟨v, s1⟩, h1, h⟩ := bind_eq_ok.1 h
  obtain ⟨⟨lo, s2⟩, h2, h⟩ := bind_eq_ok.1 h
  obtain ⟨⟨hi, s3⟩, h3, h⟩ := bind_eq_ok.1 h
  cases h
  exact hR.trans (hR.pop h1) (hR.trans (hR.regs (regStep_setP (by simp))) (hR.trans (hR.pop h2)
    (hR.trans (hR.pop h3) (hR.regs (regStep_setPc _ _)))))

/-- A register-only instruction. -/
theorem next (hR : Closed R) {s t u : State} (hu : RegStep s u)
    (h : (Host.Outcome.next u : Out) = .next t) : R s t := by
  cases h; exact hR.regs hu

/-- A closed relation holds between the states before and after any instruction. -/
theorem exec (hR : Closed R) {i : Instr} {s t : State} (h : Sys2Proof.Machine.exec i s = .next t) : R s t := by
  have hp : ∀ {a v} {s t : State}, write8 a v s = .ok t → t.p = s.p :=
    fun h => (write8_registers h).2.2.2.2.2.1
  cases i with
  | ldaImm _ => exact hR.next (regStep_loadA _ _) h
  | ldaZp _ => exact hR.readClass regStep_loadA h
  | ldaZpx _ => exact hR.readClass regStep_loadA h
  | ldaAbs _ => exact hR.readClass regStep_loadA h
  | ldaAbx _ => exact hR.readClass regStep_loadA h
  | ldaAby _ => exact hR.readClass regStep_loadA h
  | ldaIzx _ => exact hR.readClass regStep_loadA h
  | ldaIzy _ => exact hR.readClass regStep_loadA h
  | ldxImm _ => exact hR.next (regStep_loadX _ _) h
  | ldxZp _ => exact hR.readClass regStep_loadX h
  | ldxZpy _ => exact hR.readClass regStep_loadX h
  | ldxAbs _ => exact hR.readClass regStep_loadX h
  | ldxAby _ => exact hR.readClass regStep_loadX h
  | ldyImm _ => exact hR.next (regStep_loadY _ _) h
  | ldyZp _ => exact hR.readClass regStep_loadY h
  | ldyZpx _ => exact hR.readClass regStep_loadY h
  | ldyAbs _ => exact hR.readClass regStep_loadY h
  | ldyAbx _ => exact hR.readClass regStep_loadY h
  | adcImm _ => exact hR.next (regStep_addOp _ _) h
  | adcZp _ => exact hR.readClass regStep_addOp h
  | adcZpx _ => exact hR.readClass regStep_addOp h
  | adcAbs _ => exact hR.readClass regStep_addOp h
  | adcAbx _ => exact hR.readClass regStep_addOp h
  | adcAby _ => exact hR.readClass regStep_addOp h
  | adcIzx _ => exact hR.readClass regStep_addOp h
  | adcIzy _ => exact hR.readClass regStep_addOp h
  | sbcImm _ => exact hR.next (regStep_subOp _ _) h
  | sbcZp _ => exact hR.readClass regStep_subOp h
  | sbcZpx _ => exact hR.readClass regStep_subOp h
  | sbcAbs _ => exact hR.readClass regStep_subOp h
  | sbcAbx _ => exact hR.readClass regStep_subOp h
  | sbcAby _ => exact hR.readClass regStep_subOp h
  | sbcIzx _ => exact hR.readClass regStep_subOp h
  | sbcIzy _ => exact hR.readClass regStep_subOp h
  | andImm _ => exact hR.next (regStep_andOp _ _) h
  | andZp _ => exact hR.readClass regStep_andOp h
  | andZpx _ => exact hR.readClass regStep_andOp h
  | andAbs _ => exact hR.readClass regStep_andOp h
  | andAbx _ => exact hR.readClass regStep_andOp h
  | andAby _ => exact hR.readClass regStep_andOp h
  | andIzx _ => exact hR.readClass regStep_andOp h
  | andIzy _ => exact hR.readClass regStep_andOp h
  | oraImm _ => exact hR.next (regStep_oraOp _ _) h
  | oraZp _ => exact hR.readClass regStep_oraOp h
  | oraZpx _ => exact hR.readClass regStep_oraOp h
  | oraAbs _ => exact hR.readClass regStep_oraOp h
  | oraAbx _ => exact hR.readClass regStep_oraOp h
  | oraAby _ => exact hR.readClass regStep_oraOp h
  | oraIzx _ => exact hR.readClass regStep_oraOp h
  | oraIzy _ => exact hR.readClass regStep_oraOp h
  | eorImm _ => exact hR.next (regStep_eorOp _ _) h
  | eorZp _ => exact hR.readClass regStep_eorOp h
  | eorZpx _ => exact hR.readClass regStep_eorOp h
  | eorAbs _ => exact hR.readClass regStep_eorOp h
  | eorAbx _ => exact hR.readClass regStep_eorOp h
  | eorAby _ => exact hR.readClass regStep_eorOp h
  | eorIzx _ => exact hR.readClass regStep_eorOp h
  | eorIzy _ => exact hR.readClass regStep_eorOp h
  | bitZp _ => exact hR.readClass regStep_bitOp h
  | bitAbs _ => exact hR.readClass regStep_bitOp h
  | cmpImm _ => exact hR.next (regStep_cmpOp _ _) h
  | cmpZp _ => exact hR.readClass regStep_cmpOp h
  | cmpZpx _ => exact hR.readClass regStep_cmpOp h
  | cmpAbs _ => exact hR.readClass regStep_cmpOp h
  | cmpAbx _ => exact hR.readClass regStep_cmpOp h
  | cmpAby _ => exact hR.readClass regStep_cmpOp h
  | cmpIzx _ => exact hR.readClass regStep_cmpOp h
  | cmpIzy _ => exact hR.readClass regStep_cmpOp h
  | cpxImm _ => exact hR.next (regStep_cpxOp _ _) h
  | cpxZp _ => exact hR.readClass regStep_cpxOp h
  | cpxAbs _ => exact hR.readClass regStep_cpxOp h
  | cpyImm _ => exact hR.next (regStep_cpyOp _ _) h
  | cpyZp _ => exact hR.readClass regStep_cpyOp h
  | cpyAbs _ => exact hR.readClass regStep_cpyOp h
  | staZp _ => exact hR.writeClass h
  | staZpx _ => exact hR.writeClass h
  | staAbs _ => exact hR.writeClass h
  | staAbx _ => exact hR.writeClass h
  | staAby _ => exact hR.writeClass h
  | staIzx _ => exact hR.writeClass h
  | staIzy _ => exact hR.writeClass h
  | stxZp _ => exact hR.writeClass h
  | stxZpy _ => exact hR.writeClass h
  | stxAbs _ => exact hR.writeClass h
  | styZp _ => exact hR.writeClass h
  | styZpx _ => exact hR.writeClass h
  | styAbs _ => exact hR.writeClass h
  | tax => exact hR.next (regStep_loadX _ _) h
  | tay => exact hR.next (regStep_loadY _ _) h
  | txa => exact hR.next (regStep_loadA _ _) h
  | tya => exact hR.next (regStep_loadA _ _) h
  | tsx => exact hR.next (regStep_loadX _ _) h
  | txs => exact hR.next (regStep_setSp _ _) h
  | incZp _ => exact hR.rmwClass hp keptBits_inc h
  | incZpx _ => exact hR.rmwClass hp keptBits_inc h
  | incAbs _ => exact hR.rmwClass hp keptBits_inc h
  | incAbx _ => exact hR.rmwClass hp keptBits_inc h
  | decZp _ => exact hR.rmwClass hp keptBits_dec h
  | decZpx _ => exact hR.rmwClass hp keptBits_dec h
  | decAbs _ => exact hR.rmwClass hp keptBits_dec h
  | decAbx _ => exact hR.rmwClass hp keptBits_dec h
  | aslAcc => exact hR.next (regStep_rmwA (by simp) _) h
  | aslZp _ => exact hR.rmwClass hp keptBits_asl h
  | aslZpx _ => exact hR.rmwClass hp keptBits_asl h
  | aslAbs _ => exact hR.rmwClass hp keptBits_asl h
  | aslAbx _ => exact hR.rmwClass hp keptBits_asl h
  | lsrAcc => exact hR.next (regStep_rmwA (by simp) _) h
  | lsrZp _ => exact hR.rmwClass hp keptBits_lsr h
  | lsrZpx _ => exact hR.rmwClass hp keptBits_lsr h
  | lsrAbs _ => exact hR.rmwClass hp keptBits_lsr h
  | lsrAbx _ => exact hR.rmwClass hp keptBits_lsr h
  | rolAcc => exact hR.next (regStep_rmwA (by simp) _) h
  | rolZp _ => exact hR.rmwClass hp keptBits_rol h
  | rolZpx _ => exact hR.rmwClass hp keptBits_rol h
  | rolAbs _ => exact hR.rmwClass hp keptBits_rol h
  | rolAbx _ => exact hR.rmwClass hp keptBits_rol h
  | rorAcc => exact hR.next (regStep_rmwA (by simp) _) h
  | rorZp _ => exact hR.rmwClass hp keptBits_ror h
  | rorZpx _ => exact hR.rmwClass hp keptBits_ror h
  | rorAbs _ => exact hR.rmwClass hp keptBits_ror h
  | rorAbx _ => exact hR.rmwClass hp keptBits_ror h
  | inx => exact hR.next (regStep_setXP (by simp)) h
  | dex => exact hR.next (regStep_setXP (by simp)) h
  | iny => exact hR.next (regStep_setYP (by simp)) h
  | dey => exact hR.next (regStep_setYP (by simp)) h
  | jmpAbs w => exact hR.jumpTo (m := .abs w) h
  | jmpInd w => exact hR.jumpTo (m := .ind w) h
  | jsr _ => exact hR.callSub h
  | rts => exact hR.returnSub h
  | bcc _ => exact hR.next (regStep_branch _ _ _) h
  | bcs _ => exact hR.next (regStep_branch _ _ _) h
  | beq _ => exact hR.next (regStep_branch _ _ _) h
  | bne _ => exact hR.next (regStep_branch _ _ _) h
  | bmi _ => exact hR.next (regStep_branch _ _ _) h
  | bpl _ => exact hR.next (regStep_branch _ _ _) h
  | bvc _ => exact hR.next (regStep_branch _ _ _) h
  | bvs _ => exact hR.next (regStep_branch _ _ _) h
  | pha => exact hR.pushByte h
  | php => exact hR.pushByte h
  | pla => exact hR.pullByte regStep_loadA h
  | plp => exact hR.pullByte regStep_pulledP h
  | clc => exact hR.next (regStep_setP (by simp)) h
  | sec => exact hR.next (regStep_setP (by simp)) h
  | cli => exact hR.next (regStep_setP (by simp)) h
  | sei => exact hR.next (regStep_setP (by simp)) h
  | cld => exact hR.next (regStep_setP (by simp)) h
  | sed => exact hR.next (regStep_setP (by simp)) h
  | clv => exact hR.next (regStep_setP (by simp)) h
  | nop => exact hR.next ⟨_, _, _, _, _, _, rfl, rfl⟩ h
  | brk => exact hR.enterHandler (by simp) (finish_eq_next.1 h)
  | rti => exact hR.returnFromHandler (finish_eq_next.1 h)

theorem fetch8 (hR : Closed R) {b : Byte} {s t : State}
    (h : Sys2Proof.Machine.fetch8 s = .ok (b, t)) : R s t := by
  obtain ⟨⟨v, s1⟩, h1, h⟩ := bind_eq_ok.1 h
  cases h
  exact hR.trans (hR.read8 h1) (hR.regs (regStep_setPc _ _))

theorem fetch16 (hR : Closed R) {w : Word} {s t : State}
    (h : Sys2Proof.Machine.fetch16 s = .ok (w, t)) : R s t := by
  obtain ⟨⟨v, s1⟩, h1, h⟩ := bind_eq_ok.1 h
  cases h
  exact hR.trans (hR.read16 h1) (hR.regs (regStep_setPc _ _))

/-- A closed relation holds across a fetch, whether it gives an instruction or an unrecognised byte. -/
theorem fetchInstr (hR : Closed R) {s t : State} :
    (∀ i, Sys2Proof.Machine.fetchInstr s = .instr i t → R s t) ∧
      ∀ b, Sys2Proof.Machine.fetchInstr s = .illegal b t → R s t := by
  unfold Sys2Proof.Machine.fetchInstr
  cases h1 : Sys2Proof.Machine.fetch8 s with
  | error r => simp
  | ok bs =>
    obtain ⟨b, s1⟩ := bs
    have hb := hR.fetch8 h1
    cases hl : lookup b with
    | none =>
      simp only [hl]
      refine ⟨fun i h => by simp at h, fun b h => ?_⟩
      cases h; exact hb
    | some row =>
      simp only [hl]
      cases row.shape with
      | one i =>
        simp only [fetchOperand]
        refine ⟨fun i h => ?_, fun b h => by simp at h⟩
        cases h; exact hb
      | two f =>
        simp only [fetchOperand]
        cases h2 : Sys2Proof.Machine.fetch8 s1 with
        | error r => simp
        | ok ds =>
          refine ⟨fun i h => ?_, fun b h => by simp at h⟩
          cases h; exact hR.trans hb (hR.fetch8 h2)
      | three f =>
        simp only [fetchOperand]
        cases h2 : Sys2Proof.Machine.fetch16 s1 with
        | error r => simp
        | ok ds =>
          refine ⟨fun i h => ?_, fun b h => by simp at h⟩
          cases h; exact hR.trans hb (hR.fetch16 h2)

/-- A closed relation that clearing the pending request keeps holds between the states before and after a
step, and between the state before and the state a fault carries. -/
theorem step (hR : Closed R) (hn : ∀ s, R s (s.setNmiPending false)) {s t : State} :
    (Sys2Proof.Machine.step s = .next t → R s t) ∧
      ∀ b, Sys2Proof.Machine.step s = .fault (.illegalOpcode b t) → R s t := by
  obtain ⟨u, hu⟩ := nmiPrelude_ok s
  have hsu : R s u := by
    unfold nmiPrelude at hu
    split at hu
    · exact hR.trans (hn s) (hR.enterHandler rfl hu)
    · cases hu; exact hR.refl s
  unfold Sys2Proof.Machine.step fetchAndExec
  rw [hu]
  cases hf : Sys2Proof.Machine.fetchInstr u with
  | instr i v =>
    simp only [hf]
    have huv := hR.fetchInstr.1 i hf
    exact ⟨fun h => hR.trans hsu (hR.trans huv (hR.exec h)), fun b h => absurd h (exec_ne_fault i v _)⟩
  | illegal b v =>
    simp only [hf]
    refine ⟨fun h => by simp at h, fun c h => ?_⟩
    cases h
    exact hR.trans hsu (hR.fetchInstr.2 b hf)
  | refused r => simp [hf]

end Closed

end Sys2Proof.Machine
end

