-- ==== Sys2Proof/Tests/Slice0.lean ====
section
/-! SUPPORT. The model's own tests. Well-formedness: an ill-formed term for each check. Decoding: a word for every
constructor, written out from the opcode matrix of `30_encoding.md` R134 (operand byte 0x34, operand word 0x1234).
Steps: the worked examples of the spec's own rules. Witnesses: for every statement with hypotheses, a state and
operands that meet them, at the ends of each range. -/

namespace Sys2Proof.Tests

open Sys2Proof.Machine Sys2Proof.Stated

/-! ## Well-formedness -/

/-- STA has no immediate form (R183). -/
theorem test_form_sta_imm_refused : formWellFormed .STA .IMM = false := by decide
/-- The indexed forms of LDX use Y, never X (R181). -/
theorem test_form_ldx_abx_refused : formWellFormed .LDX .ABX = false := by decide
/-- JSR has the absolute form only (R241). -/
theorem test_form_jsr_ind_refused : formWellFormed .JSR .IND = false := by decide
/-- There is no form of INC on the accumulator (R220). -/
theorem test_form_inc_acc_refused : formWellFormed .INC .ACC = false := by decide
/-- JMP has the indirect form (R240). -/
theorem test_form_jmp_ind_accepted : formWellFormed .JMP .IND = true := by decide
/-- The matrix has 151 cells (R134). -/
theorem test_form_count :
    ([.ADC, .AND, .ASL, .BCC, .BCS, .BEQ, .BIT, .BMI, .BNE, .BPL, .BRK, .BVC, .BVS, .CLC, .CLD, .CLI, .CLV, .CMP,
      .CPX, .CPY, .DEC, .DEX, .DEY, .EOR, .INC, .INX, .INY, .JMP, .JSR, .LDA, .LDX, .LDY, .LSR, .NOP, .ORA, .PHA,
      .PHP, .PLA, .PLP, .ROL, .ROR, .RTI, .RTS, .SBC, .SEC, .SED, .SEI, .STA, .STX, .STY, .TAX, .TAY, .TSX, .TXA,
      .TXS, .TYA].map fun m => (modesOf m).length).sum = 151 := by decide
/-- An image one byte short of CHR block 1's end is refused (R343). -/
theorem test_image_short_refused : romImageWellFormed (List.replicate 0x600F 0x00#8) = false := by
  rw [romImageWellFormed, List.length_replicate]; rfl
/-- An image of exactly the three blocks and the header is accepted (R343). -/
theorem test_image_exact_accepted : romImageWellFormed (List.replicate 0x6010 0x00#8) = true := by
  rw [romImageWellFormed, List.length_replicate]; rfl

/-! ## Decoding: one word for every row of the matrix -/

theorem test_decode_0x :
    ([
      (8, 0x00), (16, 0x3401), (16, 0x3405), (16, 0x3406), (8, 0x08), (16, 0x3409), (8, 0x0A), (24, 0x12340D),
      (24, 0x12340E)] : List (Nat × Nat)).map (fun x => decodeTableWord x.1 x.2) = [
      .brk, .oraIzx 0x34#8, .oraZp 0x34#8, .aslZp 0x34#8, .php, .oraImm 0x34#8, .aslAcc, .oraAbs 0x1234#16,
      .aslAbs 0x1234#16].map some := by decide

theorem test_decode_1x :
    ([
      (16, 0x3410), (16, 0x3411), (16, 0x3415), (16, 0x3416), (8, 0x18), (24, 0x123419), (24, 0x12341D),
      (24, 0x12341E)] : List (Nat × Nat)).map (fun x => decodeTableWord x.1 x.2) = [
      .bpl 0x34#8, .oraIzy 0x34#8, .oraZpx 0x34#8, .aslZpx 0x34#8, .clc, .oraAby 0x1234#16, .oraAbx 0x1234#16,
      .aslAbx 0x1234#16].map some := by decide

theorem test_decode_2x :
    ([
      (24, 0x123420), (16, 0x3421), (16, 0x3424), (16, 0x3425), (16, 0x3426), (8, 0x28), (16, 0x3429), (8, 0x2A),
      (24, 0x12342C), (24, 0x12342D), (24, 0x12342E)] : List (Nat × Nat)).map (fun x => decodeTableWord x.1 x.2) = [
      .jsr 0x1234#16, .andIzx 0x34#8, .bitZp 0x34#8, .andZp 0x34#8, .rolZp 0x34#8, .plp, .andImm 0x34#8, .rolAcc,
      .bitAbs 0x1234#16, .andAbs 0x1234#16, .rolAbs 0x1234#16].map some := by decide

theorem test_decode_3x :
    ([
      (16, 0x3430), (16, 0x3431), (16, 0x3435), (16, 0x3436), (8, 0x38), (24, 0x123439), (24, 0x12343D),
      (24, 0x12343E)] : List (Nat × Nat)).map (fun x => decodeTableWord x.1 x.2) = [
      .bmi 0x34#8, .andIzy 0x34#8, .andZpx 0x34#8, .rolZpx 0x34#8, .sec, .andAby 0x1234#16, .andAbx 0x1234#16,
      .rolAbx 0x1234#16].map some := by decide

theorem test_decode_4x :
    ([
      (8, 0x40), (16, 0x3441), (16, 0x3445), (16, 0x3446), (8, 0x48), (16, 0x3449), (8, 0x4A), (24, 0x12344C),
      (24, 0x12344D), (24, 0x12344E)] : List (Nat × Nat)).map (fun x => decodeTableWord x.1 x.2) = [
      .rti, .eorIzx 0x34#8, .eorZp 0x34#8, .lsrZp 0x34#8, .pha, .eorImm 0x34#8, .lsrAcc, .jmpAbs 0x1234#16,
      .eorAbs 0x1234#16, .lsrAbs 0x1234#16].map some := by decide

theorem test_decode_5x :
    ([
      (16, 0x3450), (16, 0x3451), (16, 0x3455), (16, 0x3456), (8, 0x58), (24, 0x123459), (24, 0x12345D),
      (24, 0x12345E)] : List (Nat × Nat)).map (fun x => decodeTableWord x.1 x.2) = [
      .bvc 0x34#8, .eorIzy 0x34#8, .eorZpx 0x34#8, .lsrZpx 0x34#8, .cli, .eorAby 0x1234#16, .eorAbx 0x1234#16,
      .lsrAbx 0x1234#16].map some := by decide

theorem test_decode_6x :
    ([
      (8, 0x60), (16, 0x3461), (16, 0x3465), (16, 0x3466), (8, 0x68), (16, 0x3469), (8, 0x6A), (24, 0x12346C),
      (24, 0x12346D), (24, 0x12346E)] : List (Nat × Nat)).map (fun x => decodeTableWord x.1 x.2) = [
      .rts, .adcIzx 0x34#8, .adcZp 0x34#8, .rorZp 0x34#8, .pla, .adcImm 0x34#8, .rorAcc, .jmpInd 0x1234#16,
      .adcAbs 0x1234#16, .rorAbs 0x1234#16].map some := by decide

theorem test_decode_7x :
    ([
      (16, 0x3470), (16, 0x3471), (16, 0x3475), (16, 0x3476), (8, 0x78), (24, 0x123479), (24, 0x12347D),
      (24, 0x12347E)] : List (Nat × Nat)).map (fun x => decodeTableWord x.1 x.2) = [
      .bvs 0x34#8, .adcIzy 0x34#8, .adcZpx 0x34#8, .rorZpx 0x34#8, .sei, .adcAby 0x1234#16, .adcAbx 0x1234#16,
      .rorAbx 0x1234#16].map some := by decide

theorem test_decode_8x :
    ([
      (16, 0x3481), (16, 0x3484), (16, 0x3485), (16, 0x3486), (8, 0x88), (8, 0x8A), (24, 0x12348C), (24, 0x12348D),
      (24, 0x12348E)] : List (Nat × Nat)).map (fun x => decodeTableWord x.1 x.2) = [
      .staIzx 0x34#8, .styZp 0x34#8, .staZp 0x34#8, .stxZp 0x34#8, .dey, .txa, .styAbs 0x1234#16,
      .staAbs 0x1234#16, .stxAbs 0x1234#16].map some := by decide

theorem test_decode_9x :
    ([
      (16, 0x3490), (16, 0x3491), (16, 0x3494), (16, 0x3495), (16, 0x3496), (8, 0x98), (24, 0x123499), (8, 0x9A),
      (24, 0x12349D)] : List (Nat × Nat)).map (fun x => decodeTableWord x.1 x.2) = [
      .bcc 0x34#8, .staIzy 0x34#8, .styZpx 0x34#8, .staZpx 0x34#8, .stxZpy 0x34#8, .tya, .staAby 0x1234#16, .txs,
      .staAbx 0x1234#16].map some := by decide

theorem test_decode_Ax :
    ([
      (16, 0x34A0), (16, 0x34A1), (16, 0x34A2), (16, 0x34A4), (16, 0x34A5), (16, 0x34A6), (8, 0xA8), (16, 0x34A9),
      (8, 0xAA), (24, 0x1234AC), (24, 0x1234AD), (24, 0x1234AE)] : List (Nat × Nat)).map (fun x => decodeTableWord x.1 x.2) = [
      .ldyImm 0x34#8, .ldaIzx 0x34#8, .ldxImm 0x34#8, .ldyZp 0x34#8, .ldaZp 0x34#8, .ldxZp 0x34#8, .tay,
      .ldaImm 0x34#8, .tax, .ldyAbs 0x1234#16, .ldaAbs 0x1234#16, .ldxAbs 0x1234#16].map some := by decide

theorem test_decode_Bx :
    ([
      (16, 0x34B0), (16, 0x34B1), (16, 0x34B4), (16, 0x34B5), (16, 0x34B6), (8, 0xB8), (24, 0x1234B9), (8, 0xBA),
      (24, 0x1234BC), (24, 0x1234BD), (24, 0x1234BE)] : List (Nat × Nat)).map (fun x => decodeTableWord x.1 x.2) = [
      .bcs 0x34#8, .ldaIzy 0x34#8, .ldyZpx 0x34#8, .ldaZpx 0x34#8, .ldxZpy 0x34#8, .clv, .ldaAby 0x1234#16, .tsx,
      .ldyAbx 0x1234#16, .ldaAbx 0x1234#16, .ldxAby 0x1234#16].map some := by decide

theorem test_decode_Cx :
    ([
      (16, 0x34C0), (16, 0x34C1), (16, 0x34C4), (16, 0x34C5), (16, 0x34C6), (8, 0xC8), (16, 0x34C9), (8, 0xCA),
      (24, 0x1234CC), (24, 0x1234CD), (24, 0x1234CE)] : List (Nat × Nat)).map (fun x => decodeTableWord x.1 x.2) = [
      .cpyImm 0x34#8, .cmpIzx 0x34#8, .cpyZp 0x34#8, .cmpZp 0x34#8, .decZp 0x34#8, .iny, .cmpImm 0x34#8, .dex,
      .cpyAbs 0x1234#16, .cmpAbs 0x1234#16, .decAbs 0x1234#16].map some := by decide

theorem test_decode_Dx :
    ([
      (16, 0x34D0), (16, 0x34D1), (16, 0x34D5), (16, 0x34D6), (8, 0xD8), (24, 0x1234D9), (24, 0x1234DD),
      (24, 0x1234DE)] : List (Nat × Nat)).map (fun x => decodeTableWord x.1 x.2) = [
      .bne 0x34#8, .cmpIzy 0x34#8, .cmpZpx 0x34#8, .decZpx 0x34#8, .cld, .cmpAby 0x1234#16, .cmpAbx 0x1234#16,
      .decAbx 0x1234#16].map some := by decide

theorem test_decode_Ex :
    ([
      (16, 0x34E0), (16, 0x34E1), (16, 0x34E4), (16, 0x34E5), (16, 0x34E6), (8, 0xE8), (16, 0x34E9), (8, 0xEA),
      (24, 0x1234EC), (24, 0x1234ED), (24, 0x1234EE)] : List (Nat × Nat)).map (fun x => decodeTableWord x.1 x.2) = [
      .cpxImm 0x34#8, .sbcIzx 0x34#8, .cpxZp 0x34#8, .sbcZp 0x34#8, .incZp 0x34#8, .inx, .sbcImm 0x34#8, .nop,
      .cpxAbs 0x1234#16, .sbcAbs 0x1234#16, .incAbs 0x1234#16].map some := by decide

theorem test_decode_Fx :
    ([
      (16, 0x34F0), (16, 0x34F1), (16, 0x34F5), (16, 0x34F6), (8, 0xF8), (24, 0x1234F9), (24, 0x1234FD),
      (24, 0x1234FE)] : List (Nat × Nat)).map (fun x => decodeTableWord x.1 x.2) = [
      .beq 0x34#8, .sbcIzy 0x34#8, .sbcZpx 0x34#8, .incZpx 0x34#8, .sed, .sbcAby 0x1234#16, .sbcAbx 0x1234#16,
      .incAbx 0x1234#16].map some := by decide

/-- An unrecognised byte is rejected (R135), a word that is cut short is completed with zeros. -/
theorem test_decode_others :
    decodeTableWord 8 0x02 = none ∧ decodeTableWord 8 0xFF = none ∧ decodeTableWord 8 0xAD = some (.ldaAbs 0x0000#16) := by
  decide

/-! ## One step -/

/-- A machine with code at 0x8000, the NMI vector at 0x9000 and the BRK vector at 0x9800. -/
def boot (code : List Byte) : State :=
  let prg := Memory.ofBytes 0 code ++ [(0x3FFB, 0x90#8), (0x3FFF, 0x98#8)]
  { State.reset with prgLo := prg, prgHi := prg, pc := 0x8000#16 }

/-- What one step leaves, seen through `f`. -/
def after {α : Type} (s : State) (f : State → α) : Option α :=
  match step s with
  | .next t => some (f t)
  | _ => none

/-- R180, its example. -/
theorem test_lda :
    after { boot [0xA9#8, 0x00#8] with a := 0x55#8 } (fun t => (t.a, t.p)) =
      some (0x00#8, 0x26#8) := by decide
/-- R166, its corner case: the sum stays in the zero page. -/
theorem test_lda_zpx :
    after { boot [0xB5#8, 0xF0#8] with x := 0x20#8, ram := [(0x0010, 0x77#8), (0x0110, 0x11#8)] } (fun t => (t.a, t.lastRd)) =
      some (0x77#8, 0x0010#16) := by decide
/-- R181, its example. -/
theorem test_ldx :
    after (boot [0xA2#8, 0xFF#8]) (fun t => (t.x, t.p)) =
      some (0xFF#8, 0xA4#8) := by decide
/-- R167, its example. -/
theorem test_ldx_zpy :
    after { boot [0xB6#8, 0xFF#8] with y := 0x02#8, ram := [(0x0001, 0x42#8)] } (fun t => (t.x, t.lastRd)) =
      some (0x42#8, 0x0001#16) := by decide
/-- R182, its example. -/
theorem test_ldy :
    after { boot [0xA4#8, 0x10#8] with ram := [(0x0010, 0x7F#8)] } (fun t => (t.y, t.p)) =
      some (0x7F#8, 0x24#8) := by decide
/-- R183, its example. -/
theorem test_sta :
    after { boot [0x8D#8, 0x00#8, 0x02#8] with a := 0x3C#8 } (fun t => (t.ram.read 0x0200, t.lastWr)) =
      some (0x3C#8, 0x0200#16) := by decide
/-- R184, its example. -/
theorem test_stx :
    after { boot [0x86#8, 0x10#8] with x := 0x07#8 } (fun t => (t.ram.read 0x0010)) =
      some (0x07#8) := by decide
/-- R185, its example. -/
theorem test_sty :
    after { boot [0x8C#8, 0x01#8, 0x20#8] with y := 0x1E#8 } (fun t => (t.ppumask)) =
      some (0x1E#8) := by decide
/-- R186, its example. -/
theorem test_tax :
    after { boot [0xAA#8] with a := 0x80#8 } (fun t => (t.x, t.p)) =
      some (0x80#8, 0xA4#8) := by decide
/-- R187, its example. -/
theorem test_tay :
    after { boot [0xA8#8] with y := 0x55#8 } (fun t => (t.y, t.p)) =
      some (0x00#8, 0x26#8) := by decide
/-- R188, its example. -/
theorem test_txa :
    after { boot [0x8A#8] with x := 0x01#8 } (fun t => (t.a, t.p)) =
      some (0x01#8, 0x24#8) := by decide
/-- R189, its example. -/
theorem test_tya :
    after { boot [0x98#8] with y := 0xFF#8 } (fun t => (t.a, t.p)) =
      some (0xFF#8, 0xA4#8) := by decide
/-- R190, its example. -/
theorem test_tsx :
    after (boot [0xBA#8]) (fun t => (t.x, t.p)) =
      some (0xFD#8, 0xA4#8) := by decide
/-- R191, its example. -/
theorem test_txs :
    after { boot [0x9A#8] with x := 0xFF#8 } (fun t => (t.sp, t.p)) =
      some (0xFF#8, 0x24#8) := by decide
/-- R200, its example. -/
theorem test_adc :
    after { boot [0x69#8, 0x01#8] with a := 0x7F#8 } (fun t => (t.a, t.p)) =
      some (0x80#8, 0xE4#8) := by decide
/-- R200, its corner case, with P.D set and without effect (R212). -/
theorem test_adc_carry_in :
    after { boot [0x69#8, 0x00#8] with a := 0xFF#8, p := 0x2D#8 } (fun t => (t.a, t.p)) =
      some (0x00#8, 0x2F#8) := by decide
/-- R201, its example. -/
theorem test_sbc :
    after { boot [0xE9#8, 0x01#8] with p := 0x25#8 } (fun t => (t.a, t.p)) =
      some (0xFF#8, 0xA4#8) := by decide
/-- R201, its corner case 0x80 - 0x01. -/
theorem test_sbc_overflow :
    after { boot [0xE9#8, 0x01#8] with a := 0x80#8, p := 0x25#8 } (fun t => (t.a, t.p)) =
      some (0x7F#8, 0x65#8) := by decide
/-- R202, its example. -/
theorem test_and :
    after { boot [0x29#8, 0x0F#8] with a := 0xF0#8 } (fun t => (t.a, t.p)) =
      some (0x00#8, 0x26#8) := by decide
/-- R203, its example. -/
theorem test_ora :
    after { boot [0x09#8, 0x80#8] with a := 0x01#8 } (fun t => (t.a, t.p)) =
      some (0x81#8, 0xA4#8) := by decide
/-- R204, its example. -/
theorem test_eor :
    after { boot [0x49#8, 0xFF#8] with a := 0xFF#8 } (fun t => (t.a, t.p)) =
      some (0x00#8, 0x26#8) := by decide
/-- R205, its example: the poll clears the stored bit. -/
theorem test_bit :
    after { boot [0x2C#8, 0x02#8, 0x20#8] with ppustatus := 0x80#8 } (fun t => (t.p, t.ppustatus)) =
      some (0xA6#8, 0x00#8) := by decide
/-- R206, its example. -/
theorem test_cmp :
    after { boot [0xC9#8, 0x10#8] with a := 0x10#8 } (fun t => (t.p)) =
      some (0x27#8) := by decide
/-- R206, its corner case 0x80 against 0x01. -/
theorem test_cmp_difference :
    after { boot [0xC9#8, 0x01#8] with a := 0x80#8 } (fun t => (t.p)) =
      some (0x25#8) := by decide
/-- R207, its example. -/
theorem test_cpx :
    after { boot [0xE0#8, 0x05#8] with x := 0x04#8 } (fun t => (t.p)) =
      some (0xA4#8) := by decide
/-- R208, its example. -/
theorem test_cpy :
    after (boot [0xC0#8, 0x00#8]) (fun t => (t.p)) =
      some (0x27#8) := by decide
/-- R220, its example. -/
theorem test_inc :
    after { boot [0xE6#8, 0x10#8] with ram := [(0x0010, 0xFF#8)] } (fun t => (t.ram.read 0x0010, t.p)) =
      some (0x00#8, 0x26#8) := by decide
/-- R221, its example. -/
theorem test_dec :
    after { boot [0xCE#8, 0x00#8, 0x03#8] with ram := [(0x0300, 0x01#8)] } (fun t => (t.ram.read 0x0300, t.p)) =
      some (0x00#8, 0x26#8) := by decide
/-- R222, its example. -/
theorem test_inx :
    after { boot [0xE8#8] with x := 0x7F#8 } (fun t => (t.x, t.p)) =
      some (0x80#8, 0xA4#8) := by decide
/-- R223, its example. -/
theorem test_iny :
    after { boot [0xC8#8] with y := 0xFF#8 } (fun t => (t.y, t.p)) =
      some (0x00#8, 0x26#8) := by decide
/-- R224, its example. -/
theorem test_dex :
    after { boot [0xCA#8] with x := 0x01#8 } (fun t => (t.x, t.p)) =
      some (0x00#8, 0x26#8) := by decide
/-- R225, its example. -/
theorem test_dey :
    after (boot [0x88#8]) (fun t => (t.y, t.p)) =
      some (0xFF#8, 0xA4#8) := by decide
/-- R226, its example. -/
theorem test_asl :
    after { boot [0x0A#8] with a := 0x81#8 } (fun t => (t.a, t.p)) =
      some (0x02#8, 0x25#8) := by decide
/-- R230, its example: ASL $2007 reads 0, writes 0 to Picture-Memory and steps the pointer once. -/
theorem test_asl_vdata :
    after { boot [0x0E#8, 0x07#8, 0x20#8] with vaddr := 0x2000#16 } (fun t => (t.vaddr, t.lastRd, t.lastWr)) =
      some (0x2001#16, 0x2007#16, 0x2007#16) := by decide
/-- R227, its example. -/
theorem test_lsr :
    after { boot [0x4A#8] with a := 0x03#8 } (fun t => (t.a, t.p)) =
      some (0x01#8, 0x25#8) := by decide
/-- R228, its example. -/
theorem test_rol :
    after { boot [0x2A#8] with a := 0x40#8, p := 0x25#8 } (fun t => (t.a, t.p)) =
      some (0x81#8, 0xA4#8) := by decide
/-- R229, its example. -/
theorem test_ror :
    after { boot [0x6A#8] with a := 0x01#8, p := 0x25#8 } (fun t => (t.a, t.p)) =
      some (0x80#8, 0xA5#8) := by decide
/-- R240, its example. -/
theorem test_jmp :
    after (boot [0x4C#8, 0x00#8, 0xC0#8]) (fun t => (t.pc)) =
      some (0xC000#16) := by decide
/-- R171, its example: the pointer at the end of a page. -/
theorem test_jmp_indirect :
    after { boot [0x6C#8, 0xFF#8, 0x02#8] with ram := [(0x0200, 0x12#8), (0x02FF, 0x34#8), (0x0300, 0x56#8)] } (fun t => (t.pc)) =
      some (0x1234#16) := by decide
/-- R241, its example. -/
theorem test_jsr :
    after (boot [0x20#8, 0x34#8, 0x12#8]) (fun t => (t.ram.read 0x01FD, t.ram.read 0x01FC, t.sp, t.pc)) =
      some (0x80#8, 0x02#8, 0xFB#8, 0x1234#16) := by decide
/-- R241, its corner case S = 0. -/
theorem test_jsr_wrap :
    after { boot [0x20#8, 0x34#8, 0x12#8] with sp := 0x00#8 } (fun t => (t.ram.read 0x0100, t.ram.read 0x01FF, t.sp)) =
      some (0x80#8, 0x02#8, 0xFE#8) := by decide
/-- R242, its example. -/
theorem test_rts :
    after { boot [0x60#8] with sp := 0xFB#8, ram := [(0x01FC, 0x02#8), (0x01FD, 0x80#8)] } (fun t => (t.pc, t.sp)) =
      some (0x8003#16, 0xFD#8) := by decide
/-- R243, its example. -/
theorem test_bcc :
    after (boot [0x90#8, 0x02#8]) (fun t => (t.pc)) =
      some (0x8004#16) := by decide
/-- R244, its example. -/
theorem test_bcs :
    after { boot [0xB0#8, 0xFE#8] with p := 0x25#8 } (fun t => (t.pc)) =
      some (0x8000#16) := by decide
/-- R245, its example. -/
theorem test_beq :
    after { boot [0xF0#8, 0x10#8] with p := 0x26#8 } (fun t => (t.pc)) =
      some (0x8012#16) := by decide
/-- R246, its example. -/
theorem test_bne :
    after { boot [0xEA#8, 0xEA#8, 0xEA#8, 0xEA#8, 0xEA#8, 0xD0#8, 0xFD#8] with pc := 0x8005#16 } (fun t => (t.pc)) =
      some (0x8004#16) := by decide
/-- R247, its example. -/
theorem test_bmi :
    after { boot [0x30#8, 0x80#8] with p := 0xA4#8 } (fun t => (t.pc)) =
      some (0x7F82#16) := by decide
/-- R248, its example. -/
theorem test_bpl :
    after { boot [0xEA#8, 0xEA#8, 0xEA#8, 0x10#8, 0xFB#8] with pc := 0x8003#16 } (fun t => (t.pc)) =
      some (0x8000#16) := by decide
/-- R249, its example. -/
theorem test_bvc :
    after (boot [0x50#8, 0x7F#8]) (fun t => (t.pc)) =
      some (0x8081#16) := by decide
/-- R250, its example. -/
theorem test_bvs :
    after (boot [0x70#8, 0x02#8]) (fun t => (t.pc)) =
      some (0x8002#16) := by decide
/-- R260, its example. -/
theorem test_pha :
    after { boot [0x48#8] with a := 0x42#8 } (fun t => (t.ram.read 0x01FD, t.sp)) =
      some (0x42#8, 0xFC#8) := by decide
/-- R261, its example. -/
theorem test_php :
    after (boot [0x08#8]) (fun t => (t.ram.read 0x01FD, t.sp, t.p)) =
      some (0x34#8, 0xFC#8, 0x24#8) := by decide
/-- R262, its example. -/
theorem test_pla :
    after { boot [0x68#8] with sp := 0xFC#8, ram := [(0x01FD, 0x42#8)] } (fun t => (t.a, t.sp, t.p)) =
      some (0x42#8, 0xFD#8, 0x24#8) := by decide
/-- R263, its example. -/
theorem test_plp :
    after { boot [0x28#8] with sp := 0xFC#8, ram := [(0x01FD, 0xC3#8)] } (fun t => (t.p, t.sp)) =
      some (0xE3#8, 0xFD#8) := by decide
/-- R264, its example. -/
theorem test_clc :
    after { boot [0x18#8] with p := 0x25#8 } (fun t => (t.p)) =
      some (0x24#8) := by decide
/-- R265, its example. -/
theorem test_sec :
    after (boot [0x38#8]) (fun t => (t.p)) =
      some (0x25#8) := by decide
/-- R266, its example. -/
theorem test_cli :
    after (boot [0x58#8]) (fun t => (t.p)) =
      some (0x20#8) := by decide
/-- R267, its example. -/
theorem test_sei :
    after { boot [0x78#8] with p := 0x20#8 } (fun t => (t.p)) =
      some (0x24#8) := by decide
/-- R268, its example. -/
theorem test_cld :
    after { boot [0xD8#8] with p := 0x2C#8 } (fun t => (t.p)) =
      some (0x24#8) := by decide
/-- R269, its example. -/
theorem test_sed :
    after (boot [0xF8#8]) (fun t => (t.p)) =
      some (0x2C#8) := by decide
/-- R270, its example. -/
theorem test_clv :
    after { boot [0xB8#8] with p := 0x64#8 } (fun t => (t.p)) =
      some (0x24#8) := by decide
/-- R271, its example. -/
theorem test_nop :
    after (boot [0xEA#8]) (fun t => (t.pc, t.lastRd)) =
      some (0x8001#16, 0x8000#16) := by decide
/-- R272: its example, with the vector at 0x9800. -/
theorem test_brk :
    after (boot [0x00#8]) (fun t => (t.ram.read 0x01FD, t.ram.read 0x01FC, t.ram.read 0x01FB, t.sp, t.p, t.pc)) =
      some (0x80#8, 0x02#8, 0x34#8, 0xFA#8, 0x24#8, 0x9800#16) := by decide
/-- R273, its example. -/
theorem test_rti :
    after { boot [0x40#8] with sp := 0xFA#8, ram := [(0x01FB, 0x34#8), (0x01FC, 0x02#8), (0x01FD, 0x80#8)] } (fun t => (t.p, t.pc, t.sp)) =
      some (0x24#8, 0x8002#16, 0xFD#8) := by decide
/-- R169, its corner case 0x12F0 + 0x20, as a store address. -/
theorem test_mode_abx :
    after { boot [0x9D#8, 0xF0#8, 0xFF#8] with x := 0x20#8, a := 0x5A#8 } (fun t => (t.ram.read 0x0010, t.lastWr)) =
      some (0x5A#8, 0x0010#16) := by decide
/-- R170, its example. -/
theorem test_mode_aby :
    after { boot [0xB9#8, 0xFF#8, 0x00#8] with y := 0x01#8, ram := [(0x0100, 0x66#8)] } (fun t => (t.a)) =
      some (0x66#8) := by decide
/-- R172, its example. -/
theorem test_mode_izx :
    after { boot [0xA1#8, 0x20#8] with x := 0x04#8, ram := [(0x0025, 0x03#8), (0x0300, 0x99#8)] } (fun t => (t.a)) =
      some (0x99#8) := by decide
/-- R173, its example. -/
theorem test_mode_izy :
    after { boot [0xB1#8, 0x20#8] with y := 0x10#8, ram := [(0x0020, 0xF8#8), (0x0021, 0x02#8), (0x0308, 0x98#8)] } (fun t => (t.a)) =
      some (0x98#8) := by decide
/-- R306, R307: PC and P pushed as stored, vector 0x9000, and the same step runs the handler's first byte (0x00 there is BRK). -/
theorem test_nmi :
    after { boot [0xEA#8, 0xEA#8, 0xEA#8, 0xEA#8, 0xEA#8, 0xEA#8, 0xEA#8, 0xEA#8, 0xEA#8, 0xEA#8, 0xEA#8, 0xEA#8, 0xEA#8, 0xEA#8, 0xEA#8, 0xEA#8] with nmiPending := true, ppuctrl := 0x80#8, pc := 0x8005#16, p := 0x20#8 } (fun t => (t.ram.read 0x01FD, t.ram.read 0x01FC, t.ram.read 0x01FB)) =
      some (0x80#8, 0x05#8, 0x20#8) := by decide

/-- R300: the byte 0x02 faults, PC is past it and LAST_RD at it. -/
theorem test_illegal_opcode :
    (match step (boot [0x02#8]) with
      | .fault (.illegalOpcode b t) => some (b, t.pc, t.lastRd)
      | _ => none) = some (0x02#8, 0x8001#16, 0x8000#16) := by
  decide

/-- R81: a load from 0x0800 is refused. -/
theorem test_ram_hole_refused : step (boot [0xAD#8, 0x00#8, 0x08#8]) = .refused .ramOutOfRange := by rfl

/-- R96: sprite DMA of page 8 is refused. -/
theorem test_dma_refused :
    step { boot [0x8D#8, 0x14#8, 0x40#8] with a := 0x08#8 } = .refused .dmaSourceOutOfRange := by rfl

/-- R113: a data-port write with the pointer at 0x3000 is refused. -/
theorem test_picture_memory_refused :
    step { boot [0x8D#8, 0x07#8, 0x20#8] with vaddr := 0x3000#16 } = .refused .pictureMemoryOutOfRange := by rfl

/-- The first step after reset runs a placed word (log entry 8): LDA $1234 is refused, STA $0234 stores. -/
theorem test_withFetchWord :
    step (State.reset.withFetchWord 24 0x1234AD) = .refused .ramOutOfRange ∧
      after (State.reset.withFetchWord 24 0x02348D) (fun t => (t.pc, t.lastWr)) = some (0x0003#16, 0x0234#16) :=
  ⟨by rfl, by decide⟩

/-- It also does when an NMI is pending and enabled, and when PC lies where nothing can be placed. -/
theorem test_withFetchWord_elsewhere :
    after (State.withFetchWord { State.reset with nmiPending := true, ppuctrl := 0x80#8 } 16 0x5AA9) (fun t => t.a) =
        some 0x5A#8 ∧
      after (State.withFetchWord { State.reset with pc := 0x2002#16 } 16 0x5AA9) (fun t => t.a) = some 0x5A#8 := by
  decide

/-- The texts of R150. -/
theorem test_asm_text :
    [asmText 0x8000#16 .nop, asmText 0x8000#16 .aslAcc, asmText 0x8000#16 (.ldaImm 0x10#8),
      asmText 0x8000#16 (.ldxZpy 0x10#8), asmText 0x8000#16 (.ldaAbx 0x1234#16), asmText 0x8000#16 (.jmpInd 0x02FF#16),
      asmText 0x8000#16 (.ldaIzx 0x10#8), asmText 0x8000#16 (.ldaIzy 0x10#8), asmText 0x8005#16 (.bne 0xFD#8)] =
    ["NOP", "ASL A", "LDA #$10", "LDX $10,Y", "LDA $1234,X", "JMP ($02FF)", "LDA ($10,X)", "LDA ($10),Y",
      "BNE $8004"] := by
  decide

/-- R323: a window inside its array shows its bytes and one past its end shows none (log entry 18). -/
theorem test_snapshot_window :
    snapshotWindow .nt 0x0FFE 2 { State.reset with nt := [(0x0FFF, 0x5A#8)] } = some [0x00#8, 0x5A#8] ∧
      snapshotWindow .nt 0x0FFF 2 State.reset = none ∧ snapshotWindow .nt 0x1000 1 State.reset = none := by
  decide

/-! ## Witnesses: the hypotheses of each statement are met, at the ends of each clause's range -/

def isNext : Host.Outcome State Fault Refusal → Bool
  | .next _ => true
  | _ => false

def isFault : Host.Outcome State Fault Refusal → Bool
  | .fault _ => true
  | _ => false

def isRefused : Host.Outcome State Fault Refusal → Bool
  | .refused _ => true
  | _ => false

def isOk {α : Type} : Except Refusal α → Bool
  | .ok _ => true
  | .error _ => false

theorem next_of_isNext {o : Host.Outcome State Fault Refusal} (h : isNext o = true) : ∃ t, o = .next t := by
  cases o with
  | next t => exact ⟨t, rfl⟩
  | fault _ => cases h
  | refused _ => cases h

theorem fault_of_isFault {o : Host.Outcome State Fault Refusal} (h : isFault o = true) :
    ∃ b t, o = .fault (.illegalOpcode b t) := by
  cases o with
  | next _ => cases h
  | fault f => cases f with | illegalOpcode b t => exact ⟨b, t, rfl⟩
  | refused _ => cases h

theorem refused_of_isRefused {o : Host.Outcome State Fault Refusal} (h : isRefused o = true) : ∃ r, o = .refused r := by
  cases o with
  | next _ => cases h
  | fault _ => cases h
  | refused r => exact ⟨r, rfl⟩

theorem ok_of_isOk {α : Type} {r : Except Refusal α} (h : isOk r = true) : ∃ v, r = .ok v := by
  cases r with
  | ok v => exact ⟨v, rfl⟩
  | error _ => cases h

theorem error_of_not_isOk {α : Type} {r : Except Refusal α} (h : isOk r = false) : ∃ e, r = .error e := by
  cases r with
  | ok _ => cases h
  | error e => exact ⟨e, rfl⟩

theorem witness_CanonicalMemoriesEqualByReads :
    ∃ m n : Memory, m.wf ∧ n.wf ∧ m ≠ [] ∧ ∀ k, m.read k = n.read k :=
  ⟨[(1, 0x05#8), (7, 0x01#8)], [(1, 0x05#8), (7, 0x01#8)], by decide, by decide, by decide, fun _ => rfl⟩

theorem witness_SetZNFlags : ∀ j ∈ [0, 2, 6], j < 8 ∧ j ≠ 1 ∧ j ≠ 7 := by decide

theorem witness_StatusByteLayout : ∀ j ∈ [0, 7], j < 8 := by decide

theorem witness_StackRoundTrip :
    (List.replicate 256 0x5A#8).length = 256 ∧ (0x00FF < 0x0100 ∨ 0x0200 ≤ 0x00FF) ∧
      (0x0200 < 0x0100 ∨ 0x0200 ≤ 0x0200) := ⟨by rw [List.length_replicate], by decide, by decide⟩

theorem read_exists {a : Word} (h : ¬ Hole a) (s : State) : ∃ v, read8 a s = .ok v := by
  obtain ⟨v, h⟩ := busValue_ok h s
  exact ⟨_, read8_of_value h⟩

theorem write_exists {a : Word} {v : Byte} {s : State} (h : WriteAccepted a v s) : ∃ t, write8 a v s = .ok t :=
  (write8_ok_iff a v s).2 h

theorem witness_BusReadByRegion :
    (∀ a ∈ [0x0000#16, 0x07FF#16], a.toNat ≤ 0x07FF) ∧
    (∀ a ∈ [0x0800#16, 0x1FFF#16], 0x0800 ≤ a.toNat ∧ a.toNat ≤ 0x1FFF) ∧
    (∀ a ∈ [0x2000#16, 0x2001#16, 0x2003#16, 0x401F#16], 0x2000 ≤ a.toNat ∧ a.toNat ≤ 0x401F ∧ a ≠ 0x2002#16) ∧
    (∀ a ∈ [0x4020#16, 0x7FFF#16], 0x4020 ≤ a.toNat ∧ a.toNat ≤ 0x7FFF) ∧
    (∀ a ∈ [0x8000#16, 0xBFFF#16], 0x8000 ≤ a.toNat ∧ a.toNat ≤ 0xBFFF) ∧
    ∀ a ∈ [0xC000#16, 0xFFFF#16], 0xC000 ≤ a.toNat := by simp

theorem witness_BusWriteByRegion :
    (∀ a ∈ [0x0000#16, 0x07FF#16], a.toNat ≤ 0x07FF) ∧
    (∀ a ∈ [0x0800#16, 0x1FFF#16], 0x0800 ≤ a.toNat ∧ a.toNat ≤ 0x1FFF) ∧
    State.reset.w = false ∧ (State.reset.setW true).w = true ∧
    ∀ a ∈ [0x2002#16, 0x2005#16, 0x2008#16, 0x4013#16, 0x4015#16, 0x401F#16, 0x4020#16, 0x8000#16, 0xFFFF#16],
      0x2000 ≤ a.toNat ∧ a ≠ 0x2000#16 ∧ a ≠ 0x2001#16 ∧ a ≠ 0x2006#16 ∧ a ≠ 0x2007#16 ∧ a ≠ 0x4014#16 := by
  simp [State.reset, State.setW]

theorem witness_VramAddressTakesTwoWrites : State.reset.w = false := by decide

theorem witness_DataPortWritesThrough :
    (∀ n ∈ [0x0000, 0x0FFF], n ≤ 0x0FFF) ∧ (∀ n ∈ [0x1000, 0x1FFF], 0x1000 ≤ n ∧ n ≤ 0x1FFF) ∧
    (∀ n ∈ [0x2000, 0x2FFF], 0x2000 ≤ n ∧ n ≤ 0x2FFF) ∧ (∀ n ∈ [0x3F00, 0x3FFF], 0x3F00 ≤ n ∧ n ≤ 0x3FFF) ∧
    ∀ n ∈ [0x3000, 0x3EFF, 0x4000, 0xFFFF], (0x3000 ≤ n ∧ n ≤ 0x3EFF) ∨ 0x4000 ≤ n := by decide

theorem witness_SpriteDmaCopiesPage :
    (∀ v ∈ [0x00#8, 0x07#8], v.toNat ≤ 7) ∧ (∀ v ∈ [0x08#8, 0xFF#8], 8 ≤ v.toNat) ∧ (boot []).ram.wf := by decide

theorem witness_PictureMemoryReadAfterWrite :
    (∀ p ∈ [0x0000#16, 0x2FFF#16, 0x3F00#16, 0x3FFF#16], PictureMemoryExists p) ∧
    ∀ p ∈ [0x3000#16, 0x3EFF#16, 0x4000#16, 0xFFFF#16], ¬ PictureMemoryExists p := by simp [PictureMemoryExists]

theorem witness_WordReadsAreTwoByteReads :
    (∃ lo s1, read8 0xFFFF#16 State.reset = .ok (lo, s1) ∧ ∃ v, read8 (0xFFFF#16 + 1#16) s1 = .ok v) ∧
    (∃ r, read8 0x0800#16 State.reset = .error r) ∧
    ∃ lo s1, read8 0x07FF#16 State.reset = .ok (lo, s1) ∧ ∃ r, read8 (0x07FF#16 + 1#16) s1 = .error r := by
  refine ⟨?_, ⟨_, read8_hole (by simp [Hole]) _⟩, ?_⟩
  · obtain ⟨⟨lo, s1⟩, h⟩ := read_exists (a := 0xFFFF#16) (by simp [Hole]) State.reset
    exact ⟨lo, s1, h, read_exists (by simp [Hole]) s1⟩
  · obtain ⟨⟨lo, s1⟩, h⟩ := read_exists (a := 0x07FF#16) (by simp [Hole]) State.reset
    exact ⟨lo, s1, h, _, read8_hole (by simp [Hole]) s1⟩

theorem witness_BusReadAfterWrite :
    (∃ t, write8 0x07FF#16 0x5A#8 State.reset = .ok t) ∧ (∃ t, write8 0x2007#16 0x5A#8 State.reset = .ok t) ∧
      (0x07FF#16).toNat ≤ 0x07FF :=
  ⟨write_exists (by simp [WriteAccepted, Hole]), write_exists (by simp [WriteAccepted, Hole, PictureMemoryExists, State.reset]), by simp⟩

theorem witness_IndirectPointerStaysInPage :
    ∀ w ∈ [0x02FF#16, 0x07FF#16, 0x2000#16, 0xFFFF#16],
      ¬ Hole w ∧ ¬ Hole ((w &&& 0xFF00#16) ||| ((w + 1#16) &&& 0x00FF#16)) := by simp [Hole]

theorem witness_DecodeEncodeAgree :
    (Instr.jmpInd 0x02FF#16).wellFormed = true ∧ decode [0x6C#8, 0xFF#8, 0x02#8, 0xEA#8] = .ok (.jmpInd 0x02FF#16, [0xEA#8]) :=
  ⟨by decide, rfl⟩

/-- A machine about to run LDA #$5A. -/
def bootLda : State := boot [0xA9#8, 0x5A#8]

theorem codeAt_bootLda : CodeAt bootLda (.ldaImm 0x5A#8) := by
  unfold CodeAt; decide

theorem witness_StepRunsDecodedInstruction :
    (nmiTaken bootLda = false ∧ CodeAt bootLda (.ldaImm 0x5A#8)) ∧
    nmiTaken { boot [] with pc := 0x2002#16, ppustatus := 0xEA#8 } = false ∧
      ∃ t, fetchInstr { boot [] with pc := 0x2002#16, ppustatus := 0xEA#8 } = .instr .nop t := by
  refine ⟨⟨by decide, codeAt_bootLda⟩, by decide, ?_⟩
  have h : (match fetchInstr { boot [] with pc := 0x2002#16, ppustatus := 0xEA#8 } with
      | .instr i _ => decide (i = .nop) | _ => false) = true := by decide
  split at h
  · rename_i i t he
    exact ⟨t, by rw [he, of_decide_eq_true h]⟩
  · cases h

theorem witness_PcAdvancesByLength :
    (nmiTaken bootLda = false ∧ CodeAt bootLda (.ldaImm 0x5A#8) ∧ (∃ t, step bootLda = .next t) ∧
      assignsPc.contains (Instr.ldaImm 0x5A#8).mnemonic = false) ∧
    nmiTaken (boot [0xB0#8, 0xFE#8]) = false ∧ CodeAt (boot [0xB0#8, 0xFE#8]) (.bcs 0xFE#8) ∧
      (∃ t, step (boot [0xB0#8, 0xFE#8]) = .next t) ∧
      branchCondition (Instr.bcs 0xFE#8).mnemonic (boot [0xB0#8, 0xFE#8]).p = some false :=
  ⟨⟨by decide, codeAt_bootLda, next_of_isNext (by decide), by decide⟩, by decide, by unfold CodeAt; decide,
    next_of_isNext (by decide), by decide⟩

theorem witness_UnrecognisedByteFaults :
    nmiPrelude (boot [0x02#8]) = .ok (boot [0x02#8]) ∧ (boot [0x02#8]).peek (boot [0x02#8]).pc = some 0x02#8 ∧
      (lookup 0x02#8).isNone = true := ⟨rfl, by decide, by decide⟩

/-- A step that gives a next state and a step that faults. -/
theorem witness_stepOutcomes : (∃ t, step bootLda = .next t) ∧ ∃ b t, step (boot [0x02#8]) = .fault (.illegalOpcode b t) :=
  ⟨next_of_isNext (by decide), fault_of_isFault (by decide)⟩

theorem witness_OnlyUnrecognisedBytesFault : ∃ b t, step (boot [0xFF#8]) = .fault (.illegalOpcode b t) :=
  fault_of_isFault (by decide)

theorem witness_RefusalsAreTheSpecs : ∃ r, step (boot [0xAD#8, 0xFF#8, 0x1F#8]) = .refused r :=
  refused_of_isRefused (by decide)

theorem witness_NmiIsTakenFirst :
    { boot [] with nmiPending := true, ppuctrl := 0x80#8 }.nmiPending = true ∧
      { boot [] with nmiPending := true, ppuctrl := 0x80#8 }.ppuctrl.getLsbD 7 = true := by decide

/-- A request that is not enabled is still pending after a step. -/
theorem witness_NmiRequestIsHeldUntilTaken :
    after { bootLda with nmiPending := true, ppuctrl := 0x7F#8 } (fun t => t.nmiPending) = some true ∧
      (∃ t, step { bootLda with nmiPending := true, ppuctrl := 0x7F#8 } = .next t) :=
  ⟨by decide, next_of_isNext (by decide)⟩

theorem boot_inv (code : List Byte) (h : Memory.wf (boot code).prgLo ∧ Memory.within Config.prgBankSize (boot code).prgLo) :
    (boot code).Inv where
  ram := ⟨⟨List.Pairwise.nil, nofun⟩, nofun⟩
  prgLo := h
  prgHi := h
  oam := ⟨⟨List.Pairwise.nil, nofun⟩, nofun⟩
  pt0 := ⟨⟨List.Pairwise.nil, nofun⟩, nofun⟩
  pt1 := ⟨⟨List.Pairwise.nil, nofun⟩, nofun⟩
  nt := ⟨⟨List.Pairwise.nil, nofun⟩, nofun⟩
  pal := ⟨⟨List.Pairwise.nil, nofun⟩, nofun⟩

theorem witness_StepKeepsMemoryForm :
    (bootLda.Inv ∧ ∃ t, step bootLda = .next t) ∧
      (boot [0x02#8]).Inv ∧ ∃ b t, step (boot [0x02#8]) = .fault (.illegalOpcode b t) :=
  ⟨⟨boot_inv _ (by decide), witness_stepOutcomes.1⟩, boot_inv _ (by decide), witness_stepOutcomes.2⟩

/-- A construction state other than `State.reset`: the open values are the spec's, not the model's. -/
theorem witness_ReachableStatesKeepForm : Reachable (boot [0xEA#8]) :=
  .construct ⟨rfl, rfl, rfl, rfl, rfl, rfl, rfl, boot_inv _ (by decide)⟩

theorem witness_StepKeepsStoredBitsAndRom : ∃ t, step bootLda = .next t := witness_stepOutcomes.1

/-- Each clause's change happens: a store of 0xFF to the port, the pointer in the palette. -/
theorem witness_DeviceStateChangesThroughItsPort :
    after { boot [0x8D#8, 0x00#8, 0x20#8] with a := 0xFF#8 } (fun t => t.ppuctrl) = some 0xFF#8 ∧
    after { boot [0x8D#8, 0x01#8, 0x20#8] with a := 0xFF#8 } (fun t => t.ppumask) = some 0xFF#8 ∧
    after { boot [0x8D#8, 0x06#8, 0x20#8] with a := 0xFF#8 } (fun t => (t.w, t.vaddr)) = some (true, 0xFF00#16) ∧
    after { boot [0x8D#8, 0x07#8, 0x20#8] with a := 0xFF#8, vaddr := 0x3FFF#16 } (fun t => (t.pal, t.vaddr)) =
      some ([(0xFF, 0xFF#8)], 0x4000#16) ∧
    after { boot [0x8D#8, 0x14#8, 0x40#8] with a := 0x07#8, ram := [(0x07FF, 0x33#8)] } (fun t => t.oam) =
      some [(0xFF, 0x33#8)] := by decide

theorem witness_StepOnlyClearsVblank :
    after { boot [0xAD#8, 0x02#8, 0x20#8] with ppustatus := 0xC0#8 } (fun t => t.ppustatus) = some 0x40#8 := by decide

theorem witness_LoadInstructions :
    (operandOf (.ldaImm 0x00#8) = .immediate 0x00#8 ∧ (Instr.ldaImm 0x00#8).mnemonic = .LDA) ∧
    (operandOf (.ldxImm 0x00#8) = .immediate 0x00#8 ∧ (Instr.ldxImm 0x00#8).mnemonic = .LDX) ∧
    (operandOf (.ldyImm 0x00#8) = .immediate 0x00#8 ∧ (Instr.ldyImm 0x00#8).mnemonic = .LDY) ∧
    ∀ w ∈ [0x07FF#16, 0x2000#16, 0xFFFF#16],
      operandOf (.ldaAbs w) = .memory (.abs w) ∧ (Instr.ldaAbs w).mnemonic = .LDA ∧
      operandOf (.ldxAbs w) = .memory (.abs w) ∧ (Instr.ldxAbs w).mnemonic = .LDX ∧
      operandOf (.ldyAbs w) = .memory (.abs w) ∧ (Instr.ldyAbs w).mnemonic = .LDY ∧
      ¬ Hole w := by simp [operandOf, Instr.mnemonic, Hole]

/-- The absolute mode resolves in every state, so the hypothesis on `effAddr` is met in the witnesses that name it. -/
theorem witness_effAddr (w : Word) (s : State) : effAddr (.abs w) s = .ok (w, s) := rfl

theorem witness_StoreInstructions :
    (operandOf (.staAbs 0x2007#16) = .memory (.abs 0x2007#16) ∧ (Instr.staAbs 0x2007#16).mnemonic = .STA) ∧
    (operandOf (.stxAbs 0x2007#16) = .memory (.abs 0x2007#16) ∧ (Instr.stxAbs 0x2007#16).mnemonic = .STX) ∧
    (operandOf (.styAbs 0x2007#16) = .memory (.abs 0x2007#16) ∧ (Instr.styAbs 0x2007#16).mnemonic = .STY) ∧
    WriteAccepted 0x2007#16 0x00#8 State.reset ∧ WriteAccepted 0x07FF#16 0x00#8 State.reset ∧
    WriteAccepted 0x4014#16 0x07#8 State.reset ∧ ¬ WriteAccepted 0x4014#16 0x08#8 State.reset ∧
    ¬ WriteAccepted 0x0800#16 0x00#8 State.reset ∧
    ¬ WriteAccepted 0x2007#16 0x00#8 (State.reset.setVaddr 0x3000#16) :=
  ⟨⟨rfl, rfl⟩, ⟨rfl, rfl⟩, ⟨rfl, rfl⟩, by simp [WriteAccepted, Hole, PictureMemoryExists, State.reset], by simp [WriteAccepted, Hole],
    by simp [WriteAccepted, Hole], by simp [WriteAccepted, Hole], by simp [WriteAccepted, Hole], by simp [WriteAccepted, PictureMemoryExists, State.setVaddr]⟩

theorem witness_AddWithCarry :
    (Instr.adcAbs 0x07FF#16).mnemonic = .ADC ∧ operandOf (.adcAbs 0x07FF#16) = .memory (.abs 0x07FF#16) ∧
      ¬ Hole 0x07FF#16 := by decide

theorem witness_SubtractWithBorrow :
    (Instr.sbcAbs 0x2000#16).mnemonic = .SBC ∧ operandOf (.sbcAbs 0x2000#16) = .memory (.abs 0x2000#16) ∧
      ¬ Hole 0x2000#16 := by decide

theorem witness_LogicInstructions :
    (operandOf (.andImm 0xFF#8) = .immediate 0xFF#8 ∧ (Instr.andImm 0xFF#8).mnemonic = .AND) ∧
    (operandOf (.oraImm 0xFF#8) = .immediate 0xFF#8 ∧ (Instr.oraImm 0xFF#8).mnemonic = .ORA) ∧
    (operandOf (.eorImm 0xFF#8) = .immediate 0xFF#8 ∧ (Instr.eorImm 0xFF#8).mnemonic = .EOR) ∧
    (operandOf (.andAbs 0x07FF#16) = .memory (.abs 0x07FF#16) ∧ (Instr.andAbs 0x07FF#16).mnemonic = .AND) ∧
    (operandOf (.oraAbs 0x07FF#16) = .memory (.abs 0x07FF#16) ∧ (Instr.oraAbs 0x07FF#16).mnemonic = .ORA) ∧
    (operandOf (.eorAbs 0x07FF#16) = .memory (.abs 0x07FF#16) ∧ (Instr.eorAbs 0x07FF#16).mnemonic = .EOR) ∧
    ¬ Hole 0x07FF#16 := by decide

theorem witness_BitTestInstructions :
    (Instr.bitAbs 0x2002#16).mnemonic = .BIT ∧ operandOf (.bitAbs 0x2002#16) = .memory (.abs 0x2002#16) ∧
      ¬ Hole 0x2002#16 := by decide

theorem witness_CompareInstructions :
    (operandOf (.cmpImm 0x10#8) = .immediate 0x10#8 ∧ (Instr.cmpImm 0x10#8).mnemonic = .CMP) ∧
    (operandOf (.cpxImm 0x10#8) = .immediate 0x10#8 ∧ (Instr.cpxImm 0x10#8).mnemonic = .CPX) ∧
    (operandOf (.cpyImm 0x10#8) = .immediate 0x10#8 ∧ (Instr.cpyImm 0x10#8).mnemonic = .CPY) ∧
    (operandOf (.cmpAbs 0x07FF#16) = .memory (.abs 0x07FF#16) ∧ (Instr.cmpAbs 0x07FF#16).mnemonic = .CMP) ∧
    (operandOf (.cpxAbs 0x07FF#16) = .memory (.abs 0x07FF#16) ∧ (Instr.cpxAbs 0x07FF#16).mnemonic = .CPX) ∧
    (operandOf (.cpyAbs 0x07FF#16) = .memory (.abs 0x07FF#16) ∧ (Instr.cpyAbs 0x07FF#16).mnemonic = .CPY) ∧
    ¬ Hole 0x07FF#16 := by decide

theorem witness_AccumulatorShifts :
    (Instr.aslAcc.mode = .ACC ∧ rmwResult Instr.aslAcc.mnemonic 0x81 0 = some (0x02, some true)) ∧
    (Instr.lsrAcc.mode = .ACC ∧ rmwResult Instr.lsrAcc.mnemonic 0x81 0 = some (0x40, some true)) ∧
    (Instr.rolAcc.mode = .ACC ∧ rmwResult Instr.rolAcc.mnemonic 0x81 1 = some (0x03, some true)) ∧
    Instr.rorAcc.mode = .ACC ∧ rmwResult Instr.rorAcc.mnemonic 0x81 1 = some (0xC0, some true) := by decide

theorem witness_ReadModifyWriteInstructions :
    operandOf (.incAbs 0x07FF#16) = .memory (.abs 0x07FF#16) ∧
    busValue 0x07FF#16 State.reset = .ok 0x00#8 ∧
    rmwResult (Instr.incAbs 0x07FF#16).mnemonic (0x00#8).toNat (getC State.reset.p).toNat = some ((0x01#8).toNat, none) ∧
    WriteAccepted 0x07FF#16 0x01#8 (readEffect 0x07FF#16 State.reset) :=
  ⟨rfl, busValue_ram (by simp) _, by decide, by simp [WriteAccepted, Hole]⟩

theorem witness_JumpInstructions :
    ¬ Hole 0x07FF#16 ∧ ¬ Hole ((0x07FF#16 &&& 0xFF00#16) ||| ((0x07FF#16 + 1#16) &&& 0x00FF#16)) := by simp [Hole]

theorem witness_BranchInstructions :
    operandOf (.bcc 0x80#8) = .relative 0x80#8 ∧ branchCondition (Instr.bcc 0x80#8).mnemonic 0x24#8 = some true ∧
      branchCondition (Instr.bcc 0x80#8).mnemonic 0x25#8 = some false := by decide

theorem witness_RegisterAndFlagFrame :
    (∃ t, exec .txs State.reset = .next t) ∧ writesA .txs = false ∧ writesX .txs = false ∧ writesY .txs = false ∧
      writesS .lsrAcc = false ∧ (flagBitsWritten Instr.txs.mnemonic).contains 7 = false ∧
      assignsPc.contains Instr.txs.mnemonic = false :=
  ⟨next_of_isNext (by decide), by decide⟩

theorem witness_StoreFrame :
    storesToMemory (.staAbs 0x07FF#16) = true ∧ operandOf (.staAbs 0x07FF#16) = .memory (.abs 0x07FF#16) ∧
      ∃ u, exec (.staAbs 0x07FF#16) State.reset = .next u := ⟨by decide, by decide, next_of_isNext (by decide)⟩

theorem witness_NoStoreFrame :
    storesToMemory (.cmpAbs 0x2002#16) = false ∧ pushes (.cmpAbs 0x2002#16) = false ∧
      ∃ t, exec (.cmpAbs 0x2002#16) State.reset = .next t := ⟨by decide, by decide, next_of_isNext (by decide)⟩

theorem witness_RomLoad :
    0x6010 ≤ (List.replicate 0x6010 0xEA#8).length ∧ (List.replicate 0x600F 0xEA#8).length < 0x6010 := by
  rw [List.length_replicate, List.length_replicate]; decide

end Sys2Proof.Tests
end

section
/-! What a refused step can say (`00_scope.md` R11): the reasons the bus gives, carried through every operation that
is built from bus accesses, to the instruction and the step. -/

namespace Sys2Proof.Machine

/-- The three reasons R11 leaves for a refusal of a step: RAM (R81), Picture-Memory (R113), the source of sprite
DMA (R96). -/
def SpecRefusal (r : Refusal) : Prop :=
  r = .ramOutOfRange ∨ r = .pictureMemoryOutOfRange ∨ r = .dmaSourceOutOfRange

/-- A computation that is refused only for the reasons of R11. -/
def RefusesAsSpec {α : Type} (x : Except Refusal α) : Prop := ∀ r, x = .error r → SpecRefusal r

theorem refusesAsSpec_ok {α : Type} (a : α) : RefusesAsSpec (.ok a) := fun _ h => nomatch h

theorem refusesAsSpec_error {α : Type} {r : Refusal} (hr : SpecRefusal r) :
    RefusesAsSpec (.error r : Except Refusal α) := fun _ h => Except.error.inj h ▸ hr

/-- A sequence is refused where its first part or its rest is. -/
theorem RefusesAsSpec.bind {α β : Type} {x : Except Refusal α} {f : α → Except Refusal β} (hx : RefusesAsSpec x)
    (hf : ∀ a, RefusesAsSpec (f a)) : RefusesAsSpec (x >>= f) := by
  cases x with
  | error e => exact refusesAsSpec_error (hx e rfl)
  | ok a => exact hf a

theorem RefusesAsSpec.finish {x : Except Refusal State} (hx : RefusesAsSpec x) {r : Refusal}
    (h : Sys2Proof.Machine.finish x = .refused r) : SpecRefusal r := by
  cases x with
  | error e => exact Host.Outcome.refused.inj h ▸ hx e rfl
  | ok s => cases h

/-! The bus. -/

theorem read8_refusesAsSpec (a : Word) (s : State) : RefusesAsSpec (read8 a s) := by
  by_cases hole : Hole a
  · rw [read8_hole hole]
    exact refusesAsSpec_error (.inl rfl)
  · obtain ⟨v, hv⟩ := busValue_ok hole s
    rw [read8_of_value hv]
    exact refusesAsSpec_ok _

theorem pmemWrite_refusesAsSpec (p : Word) (v : Byte) (s : State) : RefusesAsSpec (pmemWrite p v s) := by
  simp only [pmemWrite]
  split
  · exact refusesAsSpec_ok _
  · exact refusesAsSpec_error (.inr (.inl rfl))

theorem writeVdata_refusesAsSpec (v : Byte) (s : State) : RefusesAsSpec (writeVdata v s) :=
  (pmemWrite_refusesAsSpec _ _ _).bind fun _ => refusesAsSpec_ok _

theorem spriteDma_refusesAsSpec (v : Byte) (s : State) : RefusesAsSpec (spriteDma v s) := by
  simp only [spriteDma]
  split
  · exact refusesAsSpec_error (.inr (.inr rfl))
  · exact refusesAsSpec_ok _

/-- Of the ports, only the data port and sprite DMA can refuse a write. -/
theorem ioWrite_refusesAsSpec (a : Word) (v : Byte) (s : State) : RefusesAsSpec (ioWrite a v s) := by
  by_cases hv : a = Config.portVdata
  · subst hv
    exact writeVdata_refusesAsSpec v s
  by_cases hd : a = Config.portDma
  · subst hd
    exact spriteDma_refusesAsSpec v s
  unfold ioWrite
  simp only [hv, hd, if_false]
  split_ifs <;> exact refusesAsSpec_ok _

theorem write8_refusesAsSpec (a : Word) (v : Byte) (s : State) : RefusesAsSpec (write8 a v s) := by
  by_cases ram : a.toNat < 0x0800
  · rw [write8_ram ram]
    exact refusesAsSpec_ok _
  by_cases hole : a.toNat < 0x2000
  · rw [write8_hole ⟨by omega, by omega⟩]
    exact refusesAsSpec_error (.inl rfl)
  by_cases io : a.toNat < 0x4020
  · rw [write8_io (by omega) io]
    exact ioWrite_refusesAsSpec _ _ _
  · rw [write8_expansion (by omega)]
    exact refusesAsSpec_ok _

theorem read16_refusesAsSpec (a : Word) (s : State) : RefusesAsSpec (read16 a s) :=
  (read8_refusesAsSpec _ _).bind fun _ => (read8_refusesAsSpec _ _).bind fun _ => refusesAsSpec_ok _

/-! Fetches, modes and access classes. -/

theorem fetch8_refusesAsSpec (s : State) : RefusesAsSpec (fetch8 s) :=
  (read8_refusesAsSpec _ _).bind fun _ => refusesAsSpec_ok _

theorem fetch16_refusesAsSpec (s : State) : RefusesAsSpec (fetch16 s) :=
  (read16_refusesAsSpec _ _).bind fun _ => refusesAsSpec_ok _

/-- Only an indirect pointer can lie where a read is refused. -/
theorem effAddr_refusesAsSpec (m : Mem) (s : State) : RefusesAsSpec (effAddr m s) := by
  by_cases hm : ∃ w, m = .ind w
  · obtain ⟨w, rfl⟩ := hm
    exact (read8_refusesAsSpec _ _).bind fun _ => (read8_refusesAsSpec _ _).bind fun _ => refusesAsSpec_ok _
  · obtain ⟨ea, t, h⟩ := effAddr_ok (fun w e => hm ⟨w, e⟩) s
    rw [h]
    exact refusesAsSpec_ok _

theorem readClass_refused {m : Mem} {f : Byte → State → State} {s : State} {r : Refusal}
    (h : readClass m f s = .refused r) : SpecRefusal r :=
  RefusesAsSpec.finish ((effAddr_refusesAsSpec m s).bind fun _ =>
    (read8_refusesAsSpec _ _).bind fun _ => refusesAsSpec_ok _) h

theorem writeClass_refused {m : Mem} {v : Byte} {s : State} {r : Refusal}
    (h : writeClass m v s = .refused r) : SpecRefusal r :=
  RefusesAsSpec.finish ((effAddr_refusesAsSpec m s).bind fun _ => write8_refusesAsSpec _ _ _) h

theorem rmwClass_refused {m : Mem} {f : Byte → Byte → Byte × Byte} {s : State} {r : Refusal}
    (h : rmwClass m f s = .refused r) : SpecRefusal r :=
  RefusesAsSpec.finish ((effAddr_refusesAsSpec m s).bind fun _ => (read8_refusesAsSpec _ _).bind fun _ =>
    (write8_refusesAsSpec _ _ _).bind fun _ => refusesAsSpec_ok _) h

theorem jumpTo_refused {m : Mem} {s : State} {r : Refusal} (h : jumpTo m s = .refused r) : SpecRefusal r :=
  RefusesAsSpec.finish ((effAddr_refusesAsSpec m s).bind fun _ => refusesAsSpec_ok _) h

/-! Instructions and steps. -/

/-- PLA and PLP give one next state (R262, R263). -/
theorem pullByte_eq (f : Byte → State → State) (s : State) :
    pullByte f s = .next (f (s.ram.read (0x0100 + (s.sp + 1#8).toNat))
      ((s.setSp (s.sp + 1#8)).setLastRd (stackAddr (s.sp + 1#8)))) := by
  simp only [pullByte, pop_eq, ok_bind, finish_ok]

/-- An instruction with no memory operand touches the stack and the vectors only, so it always completes. -/
theorem exec_next_of_no_memory {i : Instr} (h : ∀ m, operandOf i ≠ .memory m) (s : State) :
    ∃ t, exec i s = .next t := by
  cases ho : operandOf i with
  | memory m => exact absurd ho (h m)
  | immediate v => cases i <;> cases ho <;> exact ⟨_, rfl⟩
  | relative d => cases i <;> cases ho <;> exact ⟨_, rfl⟩
  | accumulator => cases i <;> cases ho <;> exact ⟨_, rfl⟩
  | implied =>
    cases i with
    | rts => exact ⟨_, returnSub_eq s⟩
    | pha => exact ⟨_, congrArg finish (push_eq _ s)⟩
    | php => exact ⟨_, congrArg finish (push_eq _ s)⟩
    | pla => exact ⟨_, pullByte_eq _ s⟩
    | plp => exact ⟨_, pullByte_eq (fun v t => t.setP (mergeStatus t.p v)) s⟩
    | brk => exact ⟨_, congrArg finish (enterHandler_eq _ _ _ (by decide) (by decide) s)⟩
    | rti => exact ⟨_, congrArg finish (returnFromHandler_eq s)⟩
    | _ => cases ho <;> exact ⟨_, rfl⟩

/-- The memory instructions outside the three access classes of R175 are the jumps. -/
theorem exec_jump_memory {i : Instr} {m : Mem} (ho : operandOf i = .memory m) (hr : readOp i.mnemonic = none)
    (hs : storedReg i.mnemonic = none) (hm : rmwOp i.mnemonic = none) (s : State) :
    exec i s = jumpTo m s ∨ ∃ w, exec i s = callSub w s := by
  cases i with
  | jmpAbs w => cases ho; exact .inl rfl
  | jmpInd w => cases ho; exact .inl rfl
  | jsr w => exact .inr ⟨w, rfl⟩
  | _ => simp [operandOf, Instr.mnemonic, readOp, storedReg, rmwOp] at ho hr hs hm

/-- An instruction is refused only for the reasons of R11. -/
theorem exec_refused {i : Instr} {s : State} {r : Refusal} (h : exec i s = .refused r) : SpecRefusal r := by
  by_cases hmem : ∃ m, operandOf i = .memory m
  case neg =>
    obtain ⟨t, ht⟩ := exec_next_of_no_memory (fun m e => hmem ⟨m, e⟩) s
    rw [ht] at h
    cases h
  obtain ⟨m, ho⟩ := hmem
  cases hr : readOp i.mnemonic with
  | some f => exact readClass_refused (exec_read_memory hr ho s ▸ h)
  | none =>
  cases hs : storedReg i.mnemonic with
  | some g => exact writeClass_refused (exec_store hs ho s ▸ h)
  | none =>
  cases hm : rmwOp i.mnemonic with
  | some f => exact rmwClass_refused (exec_rmw_memory hm ho s ▸ h)
  | none =>
  obtain hjump | ⟨w, hcall⟩ := exec_jump_memory ho hr hs hm s
  · exact jumpTo_refused (hjump ▸ h)
  · rw [hcall, callSub_eq] at h
    cases h

theorem fetchOperand_refused {shape : Shape} {s : State} {r : Refusal} (h : fetchOperand shape s = .refused r) :
    SpecRefusal r := by
  cases shape with
  | one i => cases h
  | two f =>
    simp only [fetchOperand] at h
    split at h
    · cases h
    next e he => exact Fetched.refused.inj h ▸ fetch8_refusesAsSpec s e he
  | three f =>
    simp only [fetchOperand] at h
    split at h
    · cases h
    next e he => exact Fetched.refused.inj h ▸ fetch16_refusesAsSpec s e he

theorem fetchInstr_refused {s : State} {r : Refusal} (h : fetchInstr s = .refused r) : SpecRefusal r := by
  unfold fetchInstr at h
  split at h
  next e he => exact Fetched.refused.inj h ▸ fetch8_refusesAsSpec s e he
  next =>
    split at h
    · cases h
    · exact fetchOperand_refused h

theorem fetchAndExec_refused {s : State} {r : Refusal} (h : fetchAndExec s = .refused r) : SpecRefusal r := by
  unfold fetchAndExec at h
  split at h
  · exact exec_refused h
  · cases h
  next e he => exact Host.Outcome.refused.inj h ▸ fetchInstr_refused he

end Sys2Proof.Machine

namespace Sys2Proof

open Machine

/-- Settles O25: the NMI entry never fails, and what follows it is refused only as the bus refuses. -/
theorem refusalsAreTheSpecs : Obligations.RefusalsAreTheSpecs := by
  intro s r h
  obtain ⟨t, ht⟩ := nmiPrelude_ok s
  rw [step, ht] at h
  exact fetchAndExec_refused h

end Sys2Proof
end

section
/-! What every step keeps (`10_state.md` R28, R40, R44, R47 to R49): each is a relation between two states that
register changes, bus reads and bus writes keep, so `Closed.step` carries it across a step. -/

namespace Sys2Proof.Machine

/-- A closed relation holds across the fetch and the instruction, which the NMI test comes before. -/
theorem Closed.fetchAndExec {R : State → State → Prop} (hR : Closed R) {s t : State} :
    (Sys2Proof.Machine.fetchAndExec s = .next t → R s t) ∧
      ∀ b, Sys2Proof.Machine.fetchAndExec s = .fault (.illegalOpcode b t) → R s t := by
  unfold Sys2Proof.Machine.fetchAndExec
  cases hf : Sys2Proof.Machine.fetchInstr s with
  | instr i u =>
    exact ⟨fun h => hR.trans (hR.fetchInstr.1 i hf) (hR.exec h), fun b h => absurd h (exec_ne_fault i u _)⟩
  | illegal c u =>
    refine ⟨nofun, fun b h => ?_⟩
    cases h
    exact hR.fetchInstr.2 _ hf
  | refused r => exact ⟨nofun, nofun⟩

/-- `t` is what a step from `s` leaves: its next state, or the state its fault carries. -/
def StepLeaves (s t : State) : Prop := step s = .next t ∨ ∃ b, step s = .fault (.illegalOpcode b t)

/-- A step is the NMI test, which never fails, and then the fetch and the instruction. -/
theorem step_eq_fetchAndExec {s u : State} (h : nmiPrelude s = .ok u) : step s = fetchAndExec u := by
  rw [step, h]

theorem Closed.stepLeaves {R : State → State → Prop} (hR : Closed R) (hn : ∀ s, R s (s.setNmiPending false))
    {s t : State} (h : StepLeaves s t) : R s t := by
  obtain h | ⟨b, h⟩ := h
  · exact (hR.step hn).1 h
  · exact (hR.step hn).2 b h

/-! The form of the memories. -/

theorem Memory.inForm_write {m : Memory} {n k : Nat} (h : m.wf ∧ m.within n) (hk : k < n) (b : Byte) :
    (m.write k b).wf ∧ (m.write k b).within n :=
  ⟨Memory.wf_write h.1 k b, Memory.within_write h.2 hk b⟩

theorem State.Inv.regStep {s t : State} (hs : s.Inv) (h : RegStep s t) : t.Inv := by
  obtain ⟨a, x, y, sp, pc, p, -, rfl⟩ := h
  exact { hs with }

theorem State.Inv.readEffect {s : State} (hs : s.Inv) (a : Word) : (readEffect a s).Inv := by
  rw [readEffect_eq]
  exact { hs with }

theorem State.Inv.pmem {s : State} (hs : s.Inv) (r : PRegion) : (s.pmem r).wf ∧ (s.pmem r).within r.size := by
  cases r with
  | pal => exact hs.pal
  | nt => exact hs.nt
  | pt1 => exact hs.pt1
  | pt0 => exact hs.pt0

theorem State.Inv.setPmem {s : State} (hs : s.Inv) {m : Memory} {r : PRegion} (hm : m.wf ∧ m.within r.size) :
    (s.setPmem m r).Inv := by
  cases r with
  | pal => exact { hs with pal := hm }
  | nt => exact { hs with nt := hm }
  | pt1 => exact { hs with pt1 := hm }
  | pt0 => exact { hs with pt0 := hm }

/-- A bus write lands inside the array it is for: RAM (R81), OAM (R96) or a Picture-Memory region (R113). -/
theorem State.Inv.write8 {a : Word} {v : Byte} {s t : State} (hs : s.Inv)
    (h : Sys2Proof.Machine.write8 a v s = .ok t) : t.Inv := by
  have hlast : (s.setLastWr a).Inv := { hs with }
  rcases write8_cases h with ⟨ha, rfl⟩ | ⟨-, rfl⟩ | ⟨-, rfl⟩ | ⟨-, rfl⟩ | ⟨-, rfl⟩ | ⟨-, h⟩ | ⟨-, -, rfl⟩
  · exact { hs with ram := Memory.inForm_write hs.ram ha v }
  · exact hlast
  · exact { hs with }
  · exact { hs with }
  · unfold writeVaddr
    split <;> exact { hs with }
  · obtain ⟨u, hu, rfl⟩ := writeVdata_eq_ok h
    obtain ⟨hk, rfl⟩ := pmemWrite_eq_ok hu
    exact { hlast.setPmem (Memory.inForm_write (hlast.pmem _) hk v) with }
  · exact { hs with oam := ⟨Memory.wf_window hs.ram.1 _ _, Memory.within_window _ _ _⟩ }

theorem closed_inv : Closed fun s t => s.Inv → t.Inv where
  refl _ hs := hs
  trans hst htu hs := htu (hst hs)
  regs h hs := hs.regStep h
  read a _ hs := hs.readEffect a
  write h hs := hs.write8 h

/-! The stored bits 4 and 5 of `P`, the PRG banks and the pending request. -/

/-- The break and unused bits of `P` and both PRG banks are as before (R28, R83). -/
def SameKeptBitsAndRom (s t : State) : Prop :=
  keptBits t.p = keptBits s.p ∧ t.prgLo = s.prgLo ∧ t.prgHi = s.prgHi

theorem closed_sameKeptBitsAndRom : Closed SameKeptBitsAndRom where
  refl _ := ⟨rfl, rfl, rfl⟩
  trans := fun ⟨hp, hlo, hhi⟩ ⟨hp', hlo', hhi'⟩ => ⟨hp'.trans hp, hlo'.trans hlo, hhi'.trans hhi⟩
  regs := by
    rintro s _ ⟨a, x, y, sp, pc, p, hp, rfl⟩
    exact ⟨hp, rfl, rfl⟩
  read a s := by simp [SameKeptBitsAndRom]
  write h := by
    obtain ⟨-, -, -, -, -, hp, -, -, -, hlo, hhi, -⟩ := write8_registers h
    exact ⟨congrArg keptBits hp, hlo, hhi⟩

theorem closed_sameNmiPending : Closed fun s t => t.nmiPending = s.nmiPending where
  refl _ := rfl
  trans hst htu := htu.trans hst
  regs := by
    rintro s _ ⟨a, x, y, sp, pc, p, -, rfl⟩
    rfl
  read a s := by simp
  write h := by
    obtain ⟨-, -, -, -, -, -, -, -, -, -, -, hn⟩ := write8_registers h
    exact hn

/-- The NMI test drops the request exactly when it takes it (R306). -/
theorem nmiPrelude_nmiPending {s t : State} (h : nmiPrelude s = .ok t) :
    t.nmiPending = (s.nmiPending && !s.ppuctrl.getLsbD 7) := by
  unfold nmiPrelude at h
  split at h
  next taken =>
    have cleared : t.nmiPending = false := closed_sameNmiPending.enterHandler rfl h
    simp only [nmiTaken, Bool.and_eq_true] at taken
    simp [cleared, taken]
  next kept =>
    cases h
    simp only [nmiTaken, Bool.and_eq_true, not_and, Bool.not_eq_true] at kept
    cases hp : s.nmiPending with
    | false => rfl
    | true => rw [kept hp]; rfl

/-! The status register. -/

/-- The status register is as before, or as before with vblank cleared (R44, R86). -/
def StatusKeptOrCleared (s t : State) : Prop := t.ppustatus = s.ppustatus ∨ t.ppustatus = s.ppustatus &&& 0x7F#8

/-- Clearing vblank a second time changes nothing. -/
theorem StatusKeptOrCleared.trans {s t u : State} (hst : StatusKeptOrCleared s t) (htu : StatusKeptOrCleared t u) :
    StatusKeptOrCleared s u := by
  have twice : s.ppustatus &&& 0x7F#8 &&& 0x7F#8 = s.ppustatus &&& 0x7F#8 := by rw [BitVec.and_assoc, BitVec.and_self]
  unfold StatusKeptOrCleared at *
  rcases hst with e | e <;> rcases htu with e' | e' <;> simp [e, e', twice]

theorem closed_statusKeptOrCleared : Closed StatusKeptOrCleared where
  refl _ := .inl rfl
  trans := StatusKeptOrCleared.trans
  regs := by
    rintro s _ ⟨a, x, y, sp, pc, p, -, rfl⟩
    exact .inl rfl
  read a s := by
    unfold StatusKeptOrCleared
    by_cases h : a = 0x2002#16 <;> simp [h]
  write h := by
    obtain ⟨-, -, -, -, -, -, -, -, hs, -, -, -⟩ := write8_registers h
    exact .inl hs

/-! The host's operations (`60_exceptions.md` R320 to R322, `70_reset_and_hazards.md` R342). -/

theorem Memory.inForm_ofBytes_romBlock (img : List Byte) (start n : Nat) :
    (Memory.ofBytes 0 (romBlock img start n)).wf ∧ (Memory.ofBytes 0 (romBlock img start n)).within n :=
  ⟨Memory.wf_ofBytes _ 0, Memory.within_ofBytes (by simp [romBlock])⟩

theorem State.Inv.loadRomArrays {s : State} (hs : s.Inv) (img : List Byte) : (loadRomArrays img s).Inv :=
  { hs with
    prgLo := Memory.inForm_ofBytes_romBlock img _ _
    prgHi := Memory.inForm_ofBytes_romBlock img _ _
    pt0 := Memory.inForm_ofBytes_romBlock img _ _
    pt1 := Memory.inForm_ofBytes_romBlock img _ _ }

/-- After its arrays a ROM load only reads the reset vector and sets `PC`. -/
theorem hostLoadRom_closed {R : State → State → Prop} (hR : Closed R) {img : List Byte} {s t : State}
    (h : hostLoadRom img s = .ok t) : R (loadRomArrays img s) t := by
  unfold hostLoadRom at h
  split at h
  · obtain ⟨⟨w, u⟩, hu, h⟩ := bind_eq_ok.1 h
    cases h
    exact hR.trans (hR.read16 hu) (hR.regs (regStep_setPc _ _))
  · cases h

/-- Any host operation keeps a property of states that a closed relation keeps, that loading the ROM arrays keeps,
and that the request and the status register play no part in. -/
theorem hostApply_keeps {Q : State → Prop} (hQ : Closed fun s t => Q s → Q t)
    (hrom : ∀ img s, Q s → Q (loadRomArrays img s)) (hnmi : ∀ b s, Q s → Q (s.setNmiPending b))
    (hstatus : ∀ v s, Q s → Q (s.setPpustatus v)) {op : HostOp} {s t : State} (h : hostApply op s = .next t)
    (hs : Q s) : Q t := by
  cases op with
  | step => exact (hQ.step (hnmi false)).1 h hs
  | loadRom img => exact hostLoadRom_closed hQ (finish_eq_next.1 h) (hrom img s hs)
  | setNmi => cases h; exact hnmi true s hs
  | setStatus v => cases h; exact hstatus v s hs
  | read a =>
    have h := finish_eq_next.1 h
    unfold hostRead at h
    cases hr : read8 a s with
    | error r => rw [hr] at h; cases h
    | ok vt => rw [hr] at h; cases h; exact hQ.read8 hr hs
  | write a v => exact hQ.write (finish_eq_next.1 h) hs

/-- The induction over the states a host can reach. -/
theorem Reachable.induct {Q : State → Prop} (hlaunch : ∀ s, s.Launch → Q s) (hQ : Closed fun s t => Q s → Q t)
    (hrom : ∀ img s, Q s → Q (loadRomArrays img s)) (hnmi : ∀ b s, Q s → Q (s.setNmiPending b))
    (hstatus : ∀ v s, Q s → Q (s.setPpustatus v)) {s : State} (h : Reachable s) : Q s := by
  induction h with
  | construct h => exact hlaunch _ h
  | operate op _ e ih => exact hostApply_keeps hQ hrom hnmi hstatus e ih
  | resume _ e ih => exact (hQ.step (hnmi false)).2 _ e ih

/-- The stored break and unused bits are 0 and 1 (R28). -/
theorem closed_keptBits_eq (b : Byte) : Closed fun s t => keptBits s.p = b → keptBits t.p = b where
  refl _ h := h
  trans hst htu h := htu (hst h)
  regs h e := (closed_sameKeptBitsAndRom.regs h).1.trans e
  read a s e := (closed_sameKeptBitsAndRom.read a s).1.trans e
  write h e := (closed_sameKeptBitsAndRom.write h).1.trans e

end Sys2Proof.Machine

namespace Sys2Proof

open Machine

/-- Settles O28: every bus write lands inside the array it is for, and a write keeps the canonical form. -/
theorem stepKeepsMemoryForm : Obligations.StepKeepsMemoryForm :=
  fun _ _ hs h => closed_inv.stepLeaves (fun _ hs => { hs with }) h hs

/-- Settles O30. -/
theorem stepKeepsStoredBitsAndRom : Obligations.StepKeepsStoredBitsAndRom :=
  fun _ _ h => closed_sameKeptBitsAndRom.stepLeaves (fun _ => ⟨rfl, rfl, rfl⟩) h

/-- Settles O32: a read of the status port is the one access that writes the register. -/
theorem stepOnlyClearsVblank : Obligations.StepOnlyClearsVblank :=
  fun _ _ h => closed_statusKeptOrCleared.stepLeaves (fun _ => .inl rfl) h

/-- Settles O27: the NMI test drops the request when it takes it; nothing after the test touches it. -/
theorem nmiRequestIsHeldUntilTaken : Obligations.NmiRequestIsHeldUntilTaken := by
  intro s t h
  obtain ⟨u, hu⟩ := nmiPrelude_ok s
  rw [step_eq_fetchAndExec hu] at h
  have same : t.nmiPending = u.nmiPending := by
    obtain h | ⟨b, h⟩ := h
    · exact closed_sameNmiPending.fetchAndExec.1 h
    · exact closed_sameNmiPending.fetchAndExec.2 b h
  rw [same, nmiPrelude_nmiPending hu]

/-- Settles O29, by induction over what the host does. -/
theorem reachableStatesKeepForm : Obligations.ReachableStatesKeepForm := by
  intro s h
  constructor
  · exact h.induct (fun _ hl => hl.data) closed_inv (fun img _ hs => hs.loadRomArrays img) (fun _ _ hs => { hs with })
      (fun _ _ hs => { hs with })
  · exact h.induct (Q := fun s => keptBits s.p = 0x20#8) (fun _ hl => by rw [hl.p]; decide) (closed_keptBits_eq _)
      (fun _ _ hs => hs) (fun _ _ hs => hs) (fun _ _ hs => hs)

end Sys2Proof
end

section
/-! What an instruction can do by the tables of its own mnemonic: the registers and flag bits it writes (`10_state.md`
R37), whether it assigns `PC` (`30_encoding.md` R138), pushes, or stores to its effective address (R175). `Closed`
says what any instruction can do; `ClosedFor i` says it of `i`. -/

namespace Sys2Proof.Machine

open Stated

/-- The bits of a status byte outside a list are as before. -/
def KeepsBits (written : List Nat) (p q : Byte) : Prop :=
  ∀ j, j < 8 → written.contains j = false → q.getLsbD j = p.getLsbD j

theorem keepsBits_refl (l : List Nat) (p : Byte) : KeepsBits l p p := fun _ _ _ => rfl

theorem KeepsBits.setFlag {l : List Nat} {p q : Byte} (h : KeepsBits l p q) {k : Nat} (hk : l.contains k = true)
    (b : Bool) : KeepsBits l p (setFlag k b q) := by
  intro j hj hl
  have ne : j ≠ k := by
    rintro rfl
    cases hl.symm.trans hk
  rw [getLsbD_setFlag k j b q hj, if_neg ne, h j hj hl]

theorem KeepsBits.setZN {l : List Nat} {p q : Byte} (h : KeepsBits l p q) (hZ : l.contains 1 = true)
    (hN : l.contains 7 = true) (v : Byte) : KeepsBits l p (setZN v q) :=
  (h.setFlag hZ _).setFlag hN _

/-- PLP and RTI write every bit but 4 and 5 (R263, R273). -/
theorem keepsBits_mergeStatus (p v : Byte) : KeepsBits [7, 6, 3, 2, 1, 0] p (mergeStatus p v) := by
  intro j hj hl
  obtain ⟨h4, h5⟩ := (keptBits_eq_iff _ _).1 (keptBits_mergeStatus p v)
  have : j = 4 ∨ j = 5 := by simp at hl; omega
  obtain rfl | rfl := this
  · exact h4
  · exact h5

theorem keepsBits_setZN (v p : Byte) : KeepsBits [7, 1] p (setZN v p) := (keepsBits_refl _ p).setZN rfl rfl v

theorem keepsBits_adc (a m p : Byte) : KeepsBits [7, 6, 1, 0] p (adc a m p).2 :=
  (((keepsBits_refl _ p).setFlag (k := 0) rfl _).setFlag (k := 6) rfl _).setZN rfl rfl _

theorem keepsBits_sbc (a m p : Byte) : KeepsBits [7, 6, 1, 0] p (sbc a m p).2 :=
  (((keepsBits_refl _ p).setFlag (k := 0) rfl _).setFlag (k := 6) rfl _).setZN rfl rfl _

/-- Compares and shifts write C, then Z and N (R211, R226 to R229). -/
theorem keepsBits_setZN_setC (v p : Byte) (c : Bool) : KeepsBits [7, 1, 0] p (setZN v (setC c p)) :=
  ((keepsBits_refl _ p).setFlag (k := 0) rfl c).setZN rfl rfl v

theorem keepsBits_bitTest (a m p : Byte) : KeepsBits [7, 6, 1] p (bitTest a m p) :=
  (((keepsBits_refl _ p).setFlag (k := 1) rfl _).setFlag (k := 7) rfl _).setFlag (k := 6) rfl _

theorem rmwOp_keepsBits {m : Mnemonic} {f : Byte → Byte → Byte × Byte} (h : rmwOp m = some f) (v p : Byte) :
    KeepsBits (flagBitsWritten m) p (f v p).2 := by
  cases m with
  | INC => cases h; exact keepsBits_setZN _ p
  | DEC => cases h; exact keepsBits_setZN _ p
  | ASL => cases h; exact keepsBits_setZN_setC _ p _
  | LSR => cases h; exact keepsBits_setZN_setC _ p _
  | ROL => cases h; exact keepsBits_setZN_setC _ p _
  | ROR => cases h; exact keepsBits_setZN_setC _ p _
  | _ => cases h

/-- A relation that every elementary action keeps which the tables allow the instruction `i`. -/
structure ClosedFor (i : Instr) (R : State → State → Prop) : Prop where
  refl : ∀ s, R s s
  trans : ∀ {s t u}, R s t → R t u → R s u
  setA : writesA i = true → ∀ v s, R s (s.setA v)
  setX : writesX i = true → ∀ v s, R s (s.setX v)
  setY : writesY i = true → ∀ v s, R s (s.setY v)
  setSp : writesS i = true → ∀ v s, R s (s.setSp v)
  setPc : assignsPc.contains i.mnemonic = true → ∀ w s, R s (s.setPc w)
  setP : ∀ {p s}, KeepsBits (flagBitsWritten i.mnemonic) s.p p → R s (s.setP p)
  read : ∀ a s, R s (readEffect a s)
  pushed : pushes i = true → ∀ {b v s t}, write8 (stackAddr b) v s = .ok t → R s t
  store : storesToMemory i = true → ∀ {a v s t}, write8 a v s = .ok t → R s t

theorem mode_of_accumulator {i : Instr} (h : operandOf i = .accumulator) : i.mode = .ACC := by
  cases i <;> cases h <;> rfl

theorem rmwOp_of_accumulator {i : Instr} (h : operandOf i = .accumulator) : ∃ f, rmwOp i.mnemonic = some f := by
  cases i <;> cases h <;> exact ⟨_, rfl⟩

theorem readOp_of_immediate {i : Instr} {v : Byte} (h : operandOf i = .immediate v) :
    ∃ f, readOp i.mnemonic = some f := by
  cases i <;> cases h <;> exact ⟨_, rfl⟩

/-- A relative operand belongs to a branch, which assigns `PC` (R174, R243 to R250). -/
theorem exec_relative {i : Instr} {d : Byte} (h : operandOf i = .relative d) (s : State) :
    assignsPc.contains i.mnemonic = true ∧ ∃ c, exec i s = .next (branch c d s) := by
  cases i <;> cases h <;> exact ⟨rfl, _, rfl⟩

theorem storesToMemory_of_storedReg {i : Instr} {r : State → Byte} {m : Mem} (h : storedReg i.mnemonic = some r)
    (ho : operandOf i = .memory m) : storesToMemory i = true := by
  cases i <;> cases ho <;> cases h <;> rfl

theorem storesToMemory_of_rmwOp {i : Instr} {f : Byte → Byte → Byte × Byte} {m : Mem}
    (h : rmwOp i.mnemonic = some f) (ho : operandOf i = .memory m) : storesToMemory i = true := by
  cases i <;> cases ho <;> cases h <;> rfl

/-- A mnemonic that stores is one of the access class write or of the class RMW (R175). -/
theorem storesToMemory_eq_false {i : Instr} (hs : storedReg i.mnemonic = none) (hm : rmwOp i.mnemonic = none) :
    storesToMemory i = false := by
  unfold storesToMemory
  generalize i.mnemonic = m at hs hm ⊢
  cases m <;> cases hs <;> cases hm <;> rfl

theorem operandOf_of_storesToMemory {i : Instr} (h : storesToMemory i = true) : ∃ m, operandOf i = .memory m := by
  cases ho : operandOf i with
  | memory m => exact ⟨m, rfl⟩
  | _ => cases i <;> cases ho <;> cases h

namespace ClosedFor

variable {i : Instr} {R : State → State → Prop} {s t : State}

theorem setAP (hR : ClosedFor i R) (hA : writesA i = true) {rp : Byte × Byte}
    (hp : KeepsBits (flagBitsWritten i.mnemonic) s.p rp.2) : R s (setAP rp s) :=
  hR.trans (hR.setA hA rp.1 s) (hR.setP hp)

theorem setXP (hR : ClosedFor i R) (hX : writesX i = true) {rp : Byte × Byte}
    (hp : KeepsBits (flagBitsWritten i.mnemonic) s.p rp.2) : R s (setXP rp s) :=
  hR.trans (hR.setX hX rp.1 s) (hR.setP hp)

theorem setYP (hR : ClosedFor i R) (hY : writesY i = true) {rp : Byte × Byte}
    (hp : KeepsBits (flagBitsWritten i.mnemonic) s.p rp.2) : R s (setYP rp s) :=
  hR.trans (hR.setY hY rp.1 s) (hR.setP hp)

/-- The operation of an instruction that reads its operand. -/
theorem readOp (hR : ClosedFor i R) {f : Byte → State → State} (h : readOp i.mnemonic = some f) (v : Byte)
    (s : State) : R s (f v s) := by
  cases hm : i.mnemonic <;> rw [hm] at h <;> cases h
  case LDA => exact hR.setAP (rp := (v, _)) (by simp [writesA, hm]) (by rw [hm]; exact keepsBits_setZN v s.p)
  case LDX => exact hR.setXP (rp := (v, _)) (by simp [writesX, hm]) (by rw [hm]; exact keepsBits_setZN v s.p)
  case LDY => exact hR.setYP (rp := (v, _)) (by simp [writesY, hm]) (by rw [hm]; exact keepsBits_setZN v s.p)
  case ADC => exact hR.setAP (by simp [writesA, hm]) (by rw [hm]; exact keepsBits_adc s.a v s.p)
  case SBC => exact hR.setAP (by simp [writesA, hm]) (by rw [hm]; exact keepsBits_sbc s.a v s.p)
  case AND => exact hR.setAP (by simp [writesA, hm]) (by rw [hm]; exact keepsBits_setZN _ s.p)
  case ORA => exact hR.setAP (by simp [writesA, hm]) (by rw [hm]; exact keepsBits_setZN _ s.p)
  case EOR => exact hR.setAP (by simp [writesA, hm]) (by rw [hm]; exact keepsBits_setZN _ s.p)
  case BIT => exact hR.setP (by rw [hm]; exact keepsBits_bitTest s.a v s.p)
  case CMP => exact hR.setP (by rw [hm]; exact keepsBits_setZN_setC _ s.p _)
  case CPX => exact hR.setP (by rw [hm]; exact keepsBits_setZN_setC _ s.p _)
  case CPY => exact hR.setP (by rw [hm]; exact keepsBits_setZN_setC _ s.p _)

theorem read8 (hR : ClosedFor i R) {a : Word} {v : Byte} (h : Sys2Proof.Machine.read8 a s = .ok (v, t)) : R s t := by
  obtain ⟨-, rfl⟩ := read8_eq_ok.1 h
  exact hR.read a s

theorem read16 (hR : ClosedFor i R) {a w : Word} (h : Sys2Proof.Machine.read16 a s = .ok (w, t)) : R s t := by
  obtain ⟨_, _, -, -, -, rfl⟩ := read16_eq_ok.1 h
  exact hR.trans (hR.read _ _) (hR.read _ _)

theorem read16ZP (hR : ClosedFor i R) {z : Byte} {w : Word}
    (h : Sys2Proof.Machine.read16ZP z s = .ok (w, t)) : R s t := by
  obtain ⟨⟨lo, u⟩, hlo, h⟩ := bind_eq_ok.1 h
  obtain ⟨⟨hi, u'⟩, hhi, h⟩ := bind_eq_ok.1 h
  cases h
  exact hR.trans (hR.read8 hlo) (hR.read8 hhi)

theorem effAddr (hR : ClosedFor i R) {m : Mem} {ea : Word}
    (h : Sys2Proof.Machine.effAddr m s = .ok (ea, t)) : R s t := by
  cases m with
  | izx d => exact hR.read16ZP h
  | izy d =>
    obtain ⟨⟨base, u⟩, hu, h⟩ := bind_eq_ok.1 h
    cases h
    exact hR.read16ZP hu
  | ind w =>
    obtain ⟨⟨lo, u⟩, hlo, h⟩ := bind_eq_ok.1 h
    obtain ⟨⟨hi, u'⟩, hhi, h⟩ := bind_eq_ok.1 h
    cases h
    exact hR.trans (hR.read8 hlo) (hR.read8 hhi)
  | _ => cases h; exact hR.refl _

theorem push (hR : ClosedFor i R) (hpush : pushes i = true) (hS : writesS i = true) {v : Byte}
    (h : Sys2Proof.Machine.push v s = .ok t) : R s t := by
  obtain ⟨u, hu, h⟩ := bind_eq_ok.1 h
  cases h
  exact hR.trans (hR.pushed hpush hu) (hR.setSp hS _ u)

theorem pop (hR : ClosedFor i R) (hS : writesS i = true) {v : Byte}
    (h : Sys2Proof.Machine.pop s = .ok (v, t)) : R s t :=
  hR.trans (hR.setSp hS _ s) (hR.read8 h)

/-- An instruction with a memory operand. -/
theorem exec_memory (hR : ClosedFor i R) {m : Mem} (ho : operandOf i = .memory m) (h : exec i s = .next t) :
    R s t := by
  cases hr : Sys2Proof.Machine.readOp i.mnemonic with
  | some f =>
    rw [exec_read_memory hr ho] at h
    obtain ⟨ea, u, v, hea, -, rfl⟩ := readClass_eq_next.1 h
    exact hR.trans (hR.effAddr hea) (hR.trans (hR.read ea u) (hR.readOp hr v _))
  | none =>
  cases hs : storedReg i.mnemonic with
  | some r =>
    rw [exec_store hs ho] at h
    obtain ⟨ea, u, hea, hw⟩ := writeClass_eq_next.1 h
    exact hR.trans (hR.effAddr hea) (hR.store (storesToMemory_of_storedReg hs ho) hw)
  | none =>
  cases hm : rmwOp i.mnemonic with
  | some f =>
    rw [exec_rmw_memory hm ho] at h
    obtain ⟨ea, u, v, w, hea, -, hw, rfl⟩ := rmwClass_eq_next.1 h
    obtain ⟨-, -, -, -, -, hp, -⟩ := write8_registers hw
    have keeps : KeepsBits (flagBitsWritten i.mnemonic) w.p (f v s.p).2 := by
      rw [hp, readEffect_p, effAddr_p hea]
      exact rmwOp_keepsBits hm v s.p
    exact hR.trans (hR.effAddr hea) (hR.trans (hR.read ea u) (hR.trans
      (hR.store (storesToMemory_of_rmwOp hm ho) hw) (hR.setP keeps)))
  | none =>
  cases i with
  | jmpAbs w =>
    obtain ⟨ea, u, hea, rfl⟩ := (jumpTo_eq_next (m := .abs w)).1 h
    exact hR.trans (hR.effAddr hea) (hR.setPc rfl ea u)
  | jmpInd w =>
    obtain ⟨ea, u, hea, rfl⟩ := (jumpTo_eq_next (m := .ind w)).1 h
    exact hR.trans (hR.effAddr hea) (hR.setPc rfl ea u)
  | jsr w =>
    obtain ⟨u, hu, h⟩ := bind_eq_ok.1 (finish_eq_next.1 h)
    obtain ⟨u', hu', h⟩ := bind_eq_ok.1 h
    cases h
    exact hR.trans (hR.push rfl rfl hu) (hR.trans (hR.push rfl rfl hu') (hR.setPc rfl w u'))
  | _ => simp [operandOf, Instr.mnemonic, Sys2Proof.Machine.readOp, storedReg, rmwOp] at ho hr hs hm

/-- A register-only instruction. -/
theorem next {u : State} (hu : R s u) (h : (Host.Outcome.next u : Out) = .next t) : R s t := by
  cases h; exact hu

theorem setFlag (hR : ClosedFor i R) {k : Nat} (hk : (flagBitsWritten i.mnemonic).contains k = true) (b : Bool) :
    R s (s.setP (Sys2Proof.Machine.setFlag k b s.p)) :=
  hR.setP ((keepsBits_refl _ _).setFlag hk b)

theorem exec_implied (hR : ClosedFor i R) (ho : operandOf i = .implied) (h : exec i s = .next t) : R s t := by
  cases i with
  | tax => exact next (hR.setXP (rp := (s.a, _)) rfl (keepsBits_setZN _ s.p)) h
  | tay => exact next (hR.setYP (rp := (s.a, _)) rfl (keepsBits_setZN _ s.p)) h
  | txa => exact next (hR.setAP (rp := (s.x, _)) rfl (keepsBits_setZN _ s.p)) h
  | tya => exact next (hR.setAP (rp := (s.y, _)) rfl (keepsBits_setZN _ s.p)) h
  | tsx => exact next (hR.setXP (rp := (s.sp, _)) rfl (keepsBits_setZN _ s.p)) h
  | txs => exact next (hR.setSp rfl _ _) h
  | inx => exact next (hR.setXP (rp := inc s.x s.p) rfl (keepsBits_setZN _ s.p)) h
  | iny => exact next (hR.setYP (rp := inc s.y s.p) rfl (keepsBits_setZN _ s.p)) h
  | dex => exact next (hR.setXP (rp := dec s.x s.p) rfl (keepsBits_setZN _ s.p)) h
  | dey => exact next (hR.setYP (rp := dec s.y s.p) rfl (keepsBits_setZN _ s.p)) h
  | rts =>
    obtain ⟨⟨lo, u⟩, hlo, h⟩ := bind_eq_ok.1 (finish_eq_next.1 h)
    obtain ⟨⟨hi, u'⟩, hhi, h⟩ := bind_eq_ok.1 h
    cases h
    exact hR.trans (hR.pop rfl hlo) (hR.trans (hR.pop rfl hhi) (hR.setPc rfl _ u'))
  | pha => exact hR.push rfl rfl (finish_eq_next.1 h)
  | php => exact hR.push rfl rfl (finish_eq_next.1 h)
  | pla =>
    obtain ⟨⟨v, u⟩, hv, h⟩ := bind_eq_ok.1 (finish_eq_next.1 h)
    cases h
    exact hR.trans (hR.pop rfl hv) (hR.setAP (rp := (v, _)) rfl (keepsBits_setZN v u.p))
  | plp =>
    obtain ⟨⟨v, u⟩, hv, h⟩ := bind_eq_ok.1 (finish_eq_next.1 h)
    cases h
    exact hR.trans (hR.pop rfl hv) (hR.setP (keepsBits_mergeStatus u.p v))
  | clc => exact next (hR.setFlag (k := 0) rfl _) h
  | sec => exact next (hR.setFlag (k := 0) rfl _) h
  | cli => exact next (hR.setFlag (k := 2) rfl _) h
  | sei => exact next (hR.setFlag (k := 2) rfl _) h
  | cld => exact next (hR.setFlag (k := 3) rfl _) h
  | sed => exact next (hR.setFlag (k := 3) rfl _) h
  | clv => exact next (hR.setFlag (k := 6) rfl _) h
  | nop => exact next (hR.refl s) h
  | brk =>
    obtain ⟨s1, h1, h⟩ := bind_eq_ok.1 (finish_eq_next.1 h)
    obtain ⟨s2, h2, h⟩ := bind_eq_ok.1 h
    obtain ⟨s3, h3, h⟩ := bind_eq_ok.1 h
    obtain ⟨⟨target, s4⟩, h4, h⟩ := bind_eq_ok.1 h
    cases h
    have hp : s.p = s3.p := by rw [push_p h3, push_p h2, push_p h1]
    exact hR.trans (hR.push rfl rfl h1) (hR.trans (hR.push rfl rfl h2) (hR.trans (hR.push rfl rfl h3) (hR.trans
      (hp ▸ hR.setFlag (k := 2) rfl true) (hR.trans (hR.read16 h4) (hR.setPc rfl target s4)))))
  | rti =>
    obtain ⟨⟨v, s1⟩, h1, h⟩ := bind_eq_ok.1 (finish_eq_next.1 h)
    obtain ⟨⟨lo, s2⟩, h2, h⟩ := bind_eq_ok.1 h
    obtain ⟨⟨hi, s3⟩, h3, h⟩ := bind_eq_ok.1 h
    cases h
    exact hR.trans (hR.pop rfl h1) (hR.trans (hR.setP (keepsBits_mergeStatus s1.p v)) (hR.trans (hR.pop rfl h2)
      (hR.trans (hR.pop rfl h3) (hR.setPc rfl _ s3))))
  | _ => cases ho

/-- A relation closed for an instruction holds between the states before and after it. -/
theorem exec (hR : ClosedFor i R) (h : Sys2Proof.Machine.exec i s = .next t) : R s t := by
  cases ho : operandOf i with
  | implied => exact hR.exec_implied ho h
  | accumulator =>
    obtain ⟨f, hf⟩ := rmwOp_of_accumulator ho
    rw [exec_rmw_accumulator hf ho] at h
    exact next (hR.setAP (by simp [writesA, mode_of_accumulator ho]) (rmwOp_keepsBits hf s.a s.p)) h
  | immediate v =>
    obtain ⟨f, hf⟩ := readOp_of_immediate ho
    rw [exec_read_immediate hf ho] at h
    exact next (hR.readOp hf v s) h
  | relative d =>
    obtain ⟨hpc, c, hc⟩ := exec_relative ho s
    rw [hc] at h
    refine next ?_ h
    unfold branch
    split
    · exact hR.setPc hpc _ s
    · exact hR.refl s
  | memory m => exact hR.exec_memory ho h

end ClosedFor

/-! Registers, flags, ROM and the request. -/

/-- What `RegisterAndFlagFrame` says of one instruction between two states. -/
structure RegisterFrame (i : Instr) (s t : State) : Prop where
  a : writesA i = false → t.a = s.a
  x : writesX i = false → t.x = s.x
  y : writesY i = false → t.y = s.y
  sp : writesS i = false → t.sp = s.sp
  p : KeepsBits (flagBitsWritten i.mnemonic) s.p t.p
  pc : assignsPc.contains i.mnemonic = false → t.pc = s.pc
  prgLo : t.prgLo = s.prgLo
  prgHi : t.prgHi = s.prgHi
  nmiPending : t.nmiPending = s.nmiPending

theorem RegisterFrame.refl (i : Instr) (s : State) : RegisterFrame i s s :=
  ⟨fun _ => rfl, fun _ => rfl, fun _ => rfl, fun _ => rfl, keepsBits_refl _ _, fun _ => rfl, rfl, rfl, rfl⟩

theorem RegisterFrame.trans {i : Instr} {s t u : State} (hst : RegisterFrame i s t) (htu : RegisterFrame i t u) :
    RegisterFrame i s u where
  a h := (htu.a h).trans (hst.a h)
  x h := (htu.x h).trans (hst.x h)
  y h := (htu.y h).trans (hst.y h)
  sp h := (htu.sp h).trans (hst.sp h)
  p j hj hl := (htu.p j hj hl).trans (hst.p j hj hl)
  pc h := (htu.pc h).trans (hst.pc h)
  prgLo := htu.prgLo.trans hst.prgLo
  prgHi := htu.prgHi.trans hst.prgHi
  nmiPending := htu.nmiPending.trans hst.nmiPending

theorem registerFrame_readEffect (i : Instr) (a : Word) (s : State) : RegisterFrame i s (readEffect a s) := by
  rw [readEffect_eq]
  exact { RegisterFrame.refl i s with }

theorem registerFrame_write8 (i : Instr) {a : Word} {v : Byte} {s t : State} (h : write8 a v s = .ok t) :
    RegisterFrame i s t := by
  obtain ⟨ha, hx, hy, hsp, hpc, hp, -, -, -, hlo, hhi, hn⟩ := write8_registers h
  exact ⟨fun _ => ha, fun _ => hx, fun _ => hy, fun _ => hsp, hp ▸ keepsBits_refl _ _, fun _ => hpc, hlo, hhi, hn⟩

theorem closedFor_registerFrame (i : Instr) : ClosedFor i (RegisterFrame i) where
  refl := RegisterFrame.refl i
  trans := RegisterFrame.trans
  setA hw _ s := { RegisterFrame.refl i s with a := fun h => nomatch hw.symm.trans h }
  setX hw _ s := { RegisterFrame.refl i s with x := fun h => nomatch hw.symm.trans h }
  setY hw _ s := { RegisterFrame.refl i s with y := fun h => nomatch hw.symm.trans h }
  setSp hw _ s := { RegisterFrame.refl i s with sp := fun h => nomatch hw.symm.trans h }
  setPc hw _ s := { RegisterFrame.refl i s with pc := fun h => nomatch hw.symm.trans h }
  setP {_ s} hp := { RegisterFrame.refl i s with p := hp }
  read := registerFrame_readEffect i
  pushed _ := registerFrame_write8 i
  store _ := registerFrame_write8 i

end Sys2Proof.Machine

namespace Sys2Proof

open Machine

/-- Settles O57. -/
theorem registerAndFlagFrame : Obligations.RegisterAndFlagFrame := by
  intro i s t h
  have frame : RegisterFrame i s t := (closedFor_registerFrame i).exec h
  exact ⟨frame.a, frame.x, frame.y, frame.sp, frame.p, frame.pc, frame.prgLo, frame.prgHi, frame.nmiPending⟩

end Sys2Proof
end

section
/-! Which write of a step can change the Picture-Unit (`20_memory.md` R100, `40_addressing_modes.md` R177): an NMI
entry and the pushes write RAM only, a fetch only reads, and an instruction that stores makes one write, its last. -/

namespace Sys2Proof.Machine

open Stated

/-- The Picture-Unit state that only a write of a port changes: all of it but the status register. -/
def State.ports (s : State) : Byte × Byte × Bool × Word × Memory × Memory × Memory × Memory × Memory :=
  (s.ppuctrl, s.ppumask, s.w, s.vaddr, s.pt0, s.pt1, s.nt, s.pal, s.oam)

@[simp] theorem ports_setLastRd (s : State) (a : Word) : (s.setLastRd a).ports = s.ports := rfl
@[simp] theorem ports_setPc (s : State) (w : Word) : (s.setPc w).ports = s.ports := rfl
@[simp] theorem ports_setP (s : State) (p : Byte) : (s.setP p).ports = s.ports := rfl

@[simp] theorem ports_readEffect (a : Word) (s : State) : (readEffect a s).ports = s.ports := by
  rw [readEffect_eq]; rfl

/-- A push is a RAM write. -/
theorem ports_write8_stack {b v : Byte} {s t : State} (h : write8 (stackAddr b) v s = .ok t) : t.ports = s.ports := by
  rw [write8_ram (stackAddr_lt b)] at h
  cases h
  rfl

/-- An instruction that does not store leaves the Picture-Unit alone, but for reads of the status port. -/
theorem closedFor_samePorts {i : Instr} (hi : storesToMemory i = false) :
    ClosedFor i fun s t => t.ports = s.ports where
  refl _ := rfl
  trans hst htu := htu.trans hst
  setA _ _ _ := rfl
  setX _ _ _ := rfl
  setY _ _ _ := rfl
  setSp _ _ _ := rfl
  setPc _ _ _ := rfl
  setP _ := rfl
  read := ports_readEffect
  pushed _ := ports_write8_stack
  store hs := nomatch hi.symm.trans hs

theorem ports_effAddr {m : Mem} {s t : State} {ea : Word} (h : effAddr m s = .ok (ea, t)) : t.ports = s.ports := by
  rcases effAddr_eq_ok h with rfl | ⟨a, rfl⟩ | ⟨w, -, rfl⟩ <;> simp

/-- An instruction that stores does it once, after its reads; only its flags come after the write (R175, R230). -/
theorem exec_store_cases {i : Instr} (hi : storesToMemory i = true) {s t : State} (h : exec i s = .next t) :
    ∃ ea v u w p, u.ports = s.ports ∧ write8 ea v u = .ok w ∧ t = w.setP p := by
  obtain ⟨m, ho⟩ := operandOf_of_storesToMemory hi
  cases hs : storedReg i.mnemonic with
  | some r =>
    rw [exec_store hs ho] at h
    obtain ⟨ea, u, hea, hw⟩ := writeClass_eq_next.1 h
    exact ⟨ea, _, u, t, t.p, ports_effAddr hea, hw, rfl⟩
  | none =>
  cases hm : rmwOp i.mnemonic with
  | some f =>
    rw [exec_rmw_memory hm ho] at h
    obtain ⟨ea, u, v, w, hea, -, hw, rfl⟩ := rmwClass_eq_next.1 h
    exact ⟨ea, _, readEffect ea u, w, _, (ports_readEffect ea u).trans (ports_effAddr hea), hw, rfl⟩
  | none => exact nomatch (storesToMemory_eq_false hs hm).symm.trans hi

/-! The fetch and the NMI entry. -/

/-- What `Fetch8` leaves (R160). -/
theorem fetch8_eq_ok {s t : State} {b : Byte} (h : fetch8 s = .ok (b, t)) :
    t = (readEffect s.pc s).setPc (s.pc + 1#16) := by
  obtain ⟨⟨v, u⟩, hu, h⟩ := bind_eq_ok.1 h
  obtain ⟨-, rfl⟩ := read8_eq_ok.1 hu
  cases h
  rw [readEffect_pc]

/-- What `Fetch16` leaves (R161). -/
theorem fetch16_eq_ok {s t : State} {w : Word} (h : fetch16 s = .ok (w, t)) :
    t = (readEffect (s.pc + 1#16) (readEffect s.pc s)).setPc (s.pc + 2#16) := by
  obtain ⟨⟨v, u⟩, hu, h⟩ := bind_eq_ok.1 h
  obtain ⟨_, _, -, -, -, rfl⟩ := read16_eq_ok.1 hu
  cases h
  rw [readEffect_pc, readEffect_pc]

theorem ports_fetchOperand {shape : Shape} {i : Instr} {s t : State} (h : fetchOperand shape s = .instr i t) :
    t.ports = s.ports := by
  cases shape with
  | one j => cases h; rfl
  | two f =>
    simp only [fetchOperand] at h
    split at h
    next d u hu =>
      cases h
      simp [fetch8_eq_ok hu]
    next => cases h
  | three f =>
    simp only [fetchOperand] at h
    split at h
    next w u hu =>
      cases h
      simp [fetch16_eq_ok hu]
    next => cases h

theorem ports_fetchInstr {i : Instr} {s t : State} (h : fetchInstr s = .instr i t) : t.ports = s.ports := by
  unfold fetchInstr at h
  split at h
  next => cases h
  next b u hu =>
    split at h
    next => cases h
    next row _ =>
      rw [ports_fetchOperand h, fetch8_eq_ok hu]
      simp

theorem ports_nmiPrelude {s t : State} (h : nmiPrelude s = .ok t) : t.ports = s.ports := by
  unfold nmiPrelude at h
  split at h
  · rw [nmiEntry, enterHandler_eq _ _ _ (by decide) (by decide)] at h
    cases h
    rfl
  · cases h
    rfl

/-- A step that gives a next state ends with an instruction, before which the ports are untouched. -/
theorem step_next_exec {s t : State} (h : step s = .next t) : ∃ i u, u.ports = s.ports ∧ exec i u = .next t := by
  obtain ⟨u, hu⟩ := nmiPrelude_ok s
  rw [step_eq_fetchAndExec hu] at h
  unfold fetchAndExec at h
  split at h
  next i v hv => exact ⟨i, v, (ports_fetchInstr hv).trans (ports_nmiPrelude hu), h⟩
  next => cases h
  next => cases h

/-! The ports. -/

/-- Each piece of Picture-Unit state that differs from `s` to `t` is driven by the port of `t`'s last write. -/
structure PortDriven (s t : State) : Prop where
  ppuctrl : t.ppuctrl ≠ s.ppuctrl → t.lastWr = 0x2000#16
  ppumask : t.ppumask ≠ s.ppumask → t.lastWr = 0x2001#16
  w : t.w ≠ s.w → t.lastWr = 0x2006#16
  vaddr : t.vaddr ≠ s.vaddr → t.lastWr = 0x2006#16 ∨ t.lastWr = 0x2007#16
  pictureMemory : t.pt0 ≠ s.pt0 ∨ t.pt1 ≠ s.pt1 ∨ t.nt ≠ s.nt ∨ t.pal ≠ s.pal → t.lastWr = 0x2007#16
  oam : t.oam ≠ s.oam → t.lastWr = 0x4014#16

theorem portDriven_of_samePorts {s t : State} (h : t.ports = s.ports) : PortDriven s t := by
  simp only [State.ports, Prod.mk.injEq] at h
  obtain ⟨hc, hm, hw, hv, h0, h1, hn, hp, ho⟩ := h
  exact ⟨absurd hc, absurd hm, absurd hw, fun h => absurd hv h, by simp [h0, h1, hn, hp], absurd ho⟩

theorem PortDriven.congr_left {s s' t : State} (h : PortDriven s t) (hs : s.ports = s'.ports) : PortDriven s' t := by
  simp only [State.ports, Prod.mk.injEq] at hs
  obtain ⟨hc, hm, hw, hv, h0, h1, hn, hp, ho⟩ := hs
  exact ⟨hc ▸ h.ppuctrl, hm ▸ h.ppumask, hw ▸ h.w, hv ▸ h.vaddr, h0 ▸ h1 ▸ hn ▸ hp ▸ h.pictureMemory, ho ▸ h.oam⟩

/-- A bus write drives the port it is for and no other (R89 to R96). -/
theorem portDriven_write8 {a : Word} {v : Byte} {s t : State} (h : write8 a v s = .ok t) : PortDriven s t := by
  rcases write8_cases h with ⟨-, rfl⟩ | ⟨-, rfl⟩ | ⟨rfl, rfl⟩ | ⟨rfl, rfl⟩ | ⟨rfl, rfl⟩ | ⟨rfl, h⟩ | ⟨rfl, -, rfl⟩
  · exact portDriven_of_samePorts rfl
  · exact portDriven_of_samePorts rfl
  · exact { portDriven_of_samePorts rfl with ppuctrl := fun _ => rfl }
  · exact { portDriven_of_samePorts rfl with ppumask := fun _ => rfl }
  · unfold writeVaddr
    split
    · constructor <;> simp
    · constructor <;> simp
  · obtain ⟨u, hu, rfl⟩ := writeVdata_eq_ok h
    obtain ⟨-, rfl⟩ := pmemWrite_eq_ok hu
    cases (pmemDecode (s.setLastWr 0x2007#16).vaddr).1 <;> constructor <;> simp [State.setPmem]
  · constructor <;> simp

end Sys2Proof.Machine

namespace Sys2Proof

open Machine Stated

/-- Settles O31: the one write that can reach a port is the step's last. -/
theorem deviceStateChangesThroughItsPort : Obligations.DeviceStateChangesThroughItsPort := by
  intro s t h
  obtain ⟨i, u, hu, he⟩ := step_next_exec h
  have driven : PortDriven s t := by
    cases hi : storesToMemory i with
    | false => exact portDriven_of_samePorts (((closedFor_samePorts hi).exec he).trans hu)
    | true =>
      obtain ⟨ea, v, u', w, p, hu', hw, rfl⟩ := exec_store_cases hi he
      have atWrite : PortDriven s w := (portDriven_write8 hw).congr_left (hu'.trans hu)
      exact { atWrite with }
  exact ⟨driven.ppuctrl, driven.ppumask, driven.w, driven.vaddr, driven.pictureMemory, driven.oam⟩

end Sys2Proof
end

section
/-! The data of the state (`10_state.md`): what a canonical memory reads as, the status byte, and the stack. -/

namespace Sys2Proof.Machine

/-! Canonical memories. -/

@[simp] theorem Memory.read_cons_self (c : Host.Cell) (m : Memory) : Memory.read (c :: m) c.1 = c.2 := by
  simp [Memory.read]

theorem Memory.read_cons_of_ne {c : Host.Cell} {k : Nat} (h : c.1 ≠ k) (m : Memory) :
    Memory.read (c :: m) k = m.read k := by
  simp [Memory.read, h]

/-- The first cell of a canonical memory is listed for a reason, and the rest is canonical and lies above it. -/
theorem Memory.wf_cons {c : Host.Cell} {m : Memory} :
    Memory.wf (c :: m) ↔ c.2 ≠ Memory.unlisted ∧ (∀ d ∈ m, c.1 < d.1) ∧ m.wf := by
  simp only [Memory.wf, List.pairwise_cons, List.forall_mem_cons]
  tauto

theorem Memory.read_below {m : Memory} {k : Nat} (h : ∀ d ∈ m, k < d.1) : m.read k = Memory.unlisted :=
  Memory.read_of_notMem fun d hd => (h d hd).ne'

/-- Canonical memories that read alike do not start apart. -/
theorem Memory.not_lt_of_read_eq {c d : Host.Cell} {m n : Memory} (hm : Memory.wf (c :: m)) (hn : Memory.wf (d :: n))
    (h : ∀ k, Memory.read (c :: m) k = Memory.read (d :: n) k) : ¬ c.1 < d.1 := by
  intro lt
  have below : Memory.read (d :: n) c.1 = Memory.unlisted :=
    Memory.read_below (List.forall_mem_cons.2 ⟨lt, fun e he => lt.trans ((Memory.wf_cons.1 hn).2.1 e he)⟩)
  exact (Memory.wf_cons.1 hm).1 (by rw [← Memory.read_cons_self c m, h, below])

/-- A canonical memory that lists a cell does not read as the empty one. -/
theorem Memory.not_read_unlisted {c : Host.Cell} {m : Memory} (hm : Memory.wf (c :: m)) :
    ¬ ∀ k, Memory.read (c :: m) k = Memory.unlisted :=
  fun h => (Memory.wf_cons.1 hm).1 (Memory.read_cons_self c m ▸ h c.1)

theorem Memory.ext_read {m n : Memory} (hm : m.wf) (hn : n.wf) (h : ∀ k, m.read k = n.read k) : m = n := by
  induction m generalizing n with
  | nil =>
    cases n with
    | nil => rfl
    | cons d n => exact absurd (fun k => (h k).symm) (Memory.not_read_unlisted hn)
  | cons c m ih =>
    cases n with
    | nil => exact absurd h (Memory.not_read_unlisted hm)
    | cons d n =>
      have offsets : c.1 = d.1 := le_antisymm (not_lt.1 (Memory.not_lt_of_read_eq hn hm fun k => (h k).symm))
        (not_lt.1 (Memory.not_lt_of_read_eq hm hn h))
      have cells : c = d := Prod.ext offsets (by simpa [Memory.read, offsets] using h d.1)
      subst cells
      obtain ⟨-, hm1, hm⟩ := Memory.wf_cons.1 hm
      obtain ⟨-, hn1, hn⟩ := Memory.wf_cons.1 hn
      rw [ih hm hn fun k => ?_]
      by_cases hk : c.1 = k
      · subst hk
        rw [Memory.read_below hm1, Memory.read_below hn1]
      · simpa only [Memory.read_cons_of_ne hk] using h k

/-! The status byte. -/

/-- Bit `k` of a byte as arithmetic. -/
theorem toNat_getLsbD (p : Byte) (k : Nat) : (p.getLsbD k).toNat = p.toNat / 2 ^ k % 2 :=
  Nat.toNat_testBit p.toNat k

/-! The stack. -/

/-- A pull right after a push gives the byte back and restores `S` (R32). -/
theorem push_then_pop (v : Byte) (s : State) : ∃ t u, push v s = .ok t ∧ pop t = .ok (v, u) ∧ u.sp = s.sp := by
  refine ⟨_, _, push_eq v s, (pop_eq _).trans (congrArg Except.ok (Prod.ext ?_ rfl)), ?_⟩
  · simp
  · simp

/-- The stack cells of `n` pushes from stack pointer `sp`, most recent last (R32). -/
def stackCell (sp : Byte) (k : Nat) : Nat := 0x0100 + (sp - BitVec.ofNat 8 k).toNat

theorem stackCell_zero (sp : Byte) : stackCell sp 0 = 0x0100 + sp.toNat := by simp [stackCell]

/-- The cells from the second push on are those of the pushes after the first. -/
theorem stackCell_sub_one (sp : Byte) (k : Nat) : stackCell (sp - 1#8) k = stackCell sp (k + 1) := by
  have : sp - 1#8 - BitVec.ofNat 8 k = sp - BitVec.ofNat 8 (k + 1) := by
    rw [BitVec.ofNat_add]; bv_omega
  rw [stackCell, stackCell, this]

/-- Fewer than 257 pushes write no cell twice. -/
theorem stackCell_succ_ne_zero (sp : Byte) {k : Nat} (hk : k + 1 < 256) : stackCell sp (k + 1) ≠ stackCell sp 0 := by
  simp only [stackCell, BitVec.toNat_sub, BitVec.toNat_ofNat]
  have := sp.isLt
  omega

theorem stackCell_mem_page (sp : Byte) (k : Nat) : 0x0100 ≤ stackCell sp k ∧ stackCell sp k < 0x0200 := by
  have := (sp - BitVec.ofNat 8 k).isLt
  unfold stackCell
  omega

open Stated

/-- Up to 256 pushes in a row: they succeed, `S` goes down by their number, each byte stays where it was pushed, and
no other cell changes. -/
theorem pushAll_eq_ok (vs : List Byte) (s : State) (hlen : vs.length ≤ 256) :
    ∃ t, pushAll vs s = .ok t ∧ t.sp = s.sp - BitVec.ofNat 8 vs.length ∧
      (∀ k (h : k < vs.length), t.ram.read (stackCell s.sp k) = vs[k]) ∧
      ∀ j, (∀ k, k < vs.length → j ≠ stackCell s.sp k) → t.ram.read j = s.ram.read j := by
  induction vs generalizing s with
  | nil => exact ⟨s, rfl, by simp, nofun, fun _ _ => rfl⟩
  | cons v vs ih =>
    simp only [List.length_cons] at hlen ⊢
    obtain ⟨t, ht, hsp, hcells, hrest⟩ := ih (((s.setLastWr (stackAddr s.sp)).setRam
      (s.ram.write (0x0100 + s.sp.toNat) v)).setSp (s.sp - 1#8)) (by omega)
    simp only [State.setSp_sp, State.setSp_ram, State.setRam_ram, stackCell_sub_one,
      ← stackCell_zero] at hsp hcells hrest
    refine ⟨t, by simpa only [pushAll, push_eq] using ht, ?_, ?_, ?_⟩
    · rw [hsp, BitVec.ofNat_add]; bv_omega
    · intro k hk
      cases k with
      | zero =>
        rw [hrest _ fun k hk => (stackCell_succ_ne_zero s.sp (by omega)).symm]
        exact Memory.read_write_same _ _ _
      | succ k => exact hcells k (by omega)
    · intro j hj
      rw [hrest j fun k hk => hj (k + 1) (by omega), Memory.read_write_other _ _ (hj 0 (by omega))]

end Sys2Proof.Machine

namespace Sys2Proof

open Machine

/-- Settles O3, by induction on both lists. -/
theorem canonicalMemoriesEqualByReads : Obligations.CanonicalMemoriesEqualByReads :=
  fun _ _ hm hn h => Memory.ext_read hm hn h

/-- Settles O7: 256 pushes name every cell of the page once. -/
theorem stackRoundTrip : Obligations.StackRoundTrip := by
  refine ⟨push_then_pop, fun vs s hlen => ?_⟩
  obtain ⟨t, ht, hsp, hcells, hrest⟩ := pushAll_eq_ok vs s hlen.le
  refine ⟨t, ht, ?_, hcells, fun j hj => hrest j fun k _ e => ?_⟩
  · rw [hsp, hlen]
    exact BitVec.sub_zero _
  · have := stackCell_mem_page s.sp k
    omega

/-- Settles O1. -/
theorem resetHasConstructionValues : Obligations.ResetHasConstructionValues :=
  ⟨rfl, rfl, rfl, rfl, rfl, rfl, rfl⟩

/-- Settles O4: Z and N are the two flags `SetZN` writes. -/
theorem setZNFlags : Obligations.SetZNFlags := by
  intro v p
  refine ⟨getZ_setZN v p, getN_setZN v p, fun j hj hZ hN => ?_⟩
  rw [setZN, setN, setZ, getLsbD_setFlag _ _ _ _ hj, if_neg hN, getLsbD_setFlag _ _ _ _ hj, if_neg hZ]

/-- Settles O5: the binary digits of `P`, and one bit per flag write. -/
theorem statusByteLayout : Obligations.StatusByteLayout := by
  refine ⟨rfl, fun p => ?_, fun b p j hj => ?_⟩
  · have := p.isLt
    simp only [getN, getV, getU, getB, getD, getI, getZ, getC, toNat_getLsbD]
    omega
  · exact ⟨getLsbD_setFlag 0 j b p hj, getLsbD_setFlag 1 j b p hj, getLsbD_setFlag 2 j b p hj,
      getLsbD_setFlag 3 j b p hj, getLsbD_setFlag 6 j b p hj, getLsbD_setFlag 7 j b p hj⟩

/-- Settles O6. -/
theorem stackPrimitives : Obligations.StackPrimitives :=
  ⟨fun v s => push_eq v s, fun s => pop_eq s⟩

end Sys2Proof
end

section
/-! What a step fetches when the bytes of an instruction stand at `PC` (`30_encoding.md` R131, R133). -/

namespace Sys2Proof.Machine

open Stated

/-- How the bytes of an instruction are read back: the row of the first byte gives the instruction of the operand
bytes (R131, R134). -/
inductive ReadsBack (i : Instr) : Prop where
  | one {b : Byte} {row : Row} (hl : i.length = 1) (hb : encode i = [b]) (hr : lookup b = some row)
      (hs : row.shape = .one i)
  | two {b d : Byte} {row : Row} {f : Byte → Instr} (hl : i.length = 2) (hb : encode i = encode2 b d)
      (hr : lookup b = some row) (hs : row.shape = .two f) (hi : f d = i)
  | three {b : Byte} {w : Word} {row : Row} {f : Word → Instr} (hl : i.length = 3) (hb : encode i = encode3 b w)
      (hr : lookup b = some row) (hs : row.shape = .three f) (hi : f w = i)

theorem readsBack (i : Instr) : ReadsBack i := by
  cases ho : operandOf i with
  | implied => cases i <;> cases ho <;> exact .one rfl rfl rfl rfl
  | accumulator => cases i <;> cases ho <;> exact .one rfl rfl rfl rfl
  | immediate v => cases i <;> cases ho <;> exact .two rfl rfl rfl rfl rfl
  | relative d => cases i <;> cases ho <;> exact .two rfl rfl rfl rfl rfl
  | memory m =>
    cases m with
    | zp d => cases i <;> cases ho <;> exact .two rfl rfl rfl rfl rfl
    | zpx d => cases i <;> cases ho <;> exact .two rfl rfl rfl rfl rfl
    | zpy d => cases i <;> cases ho <;> exact .two rfl rfl rfl rfl rfl
    | izx d => cases i <;> cases ho <;> exact .two rfl rfl rfl rfl rfl
    | izy d => cases i <;> cases ho <;> exact .two rfl rfl rfl rfl rfl
    | abs w => cases i <;> cases ho <;> exact .three rfl rfl rfl rfl rfl
    | abx w => cases i <;> cases ho <;> exact .three rfl rfl rfl rfl rfl
    | aby w => cases i <;> cases ho <;> exact .three rfl rfl rfl rfl rfl
    | ind w => cases i <;> cases ho; exact .three rfl rfl rfl rfl rfl

/-- A byte a snapshot shows outside the status port is read with no side effect but `LAST_RD` (R70). -/
theorem read8_of_peek {a : Word} {s : State} {b : Byte} (h : s.peek a = some b) (ha : a ≠ 0x2002#16) :
    read8 a s = .ok (b, s.setLastRd a) := by
  unfold State.peek at h
  cases hv : busValue a s with
  | error r => rw [hv] at h; cases h
  | ok v =>
    rw [hv] at h
    cases h
    rw [read8_of_value hv, readEffect_plain ha]

theorem fetch8_of_peek {s : State} {b : Byte} (h : s.peek s.pc = some b) (hpc : s.pc ≠ 0x2002#16) :
    fetch8 s = .ok (b, (s.setLastRd s.pc).setPc (s.pc + 1#16)) := by
  rw [fetch8, read8_of_peek h hpc, ok_bind]
  rfl

/-- What a snapshot shows does not hang on `PC` and `LAST_RD`. -/
@[simp] theorem peek_setPc (s : State) (w a : Word) : (s.setPc w).peek a = s.peek a := rfl
@[simp] theorem peek_setLastRd (s : State) (w a : Word) : (s.setLastRd w).peek a = s.peek a := rfl

theorem fetch16_of_peek {s : State} {lo hi : Byte} (hlo : s.peek s.pc = some lo) (hpc : s.pc ≠ 0x2002#16)
    (hhi : s.peek (s.pc + 1#16) = some hi) (hpc1 : s.pc + 1#16 ≠ 0x2002#16) :
    fetch16 s = .ok (mkWord hi lo, (s.setLastRd (s.pc + 1#16)).setPc (s.pc + 2#16)) := by
  have second : read8 (s.pc + 1#16) (s.setLastRd s.pc) = .ok (hi, (s.setLastRd s.pc).setLastRd (s.pc + 1#16)) :=
    read8_of_peek hhi hpc1
  simp only [fetch16, read16, read8_of_peek hlo hpc, ok_bind, second]
  rfl

/-- The fetch reads back the instruction whose bytes stand at `PC` (R133, R160, R161). -/
theorem fetchInstr_of_codeAt {s : State} {i : Instr} (h : CodeAt s i) :
    fetchInstr s = .instr i { s with
      pc := s.pc + BitVec.ofNat 16 i.length
      lastRd := s.pc + BitVec.ofNat 16 (i.length - 1) } := by
  cases readsBack i with
  | one hl hb hr hs =>
    obtain ⟨ne0, at0⟩ := h 0 (by omega)
    rw [BitVec.add_zero] at ne0 at0
    rw [hb] at at0
    simp only [fetchInstr, fetch8_of_peek at0 ne0, hr, hs, fetchOperand, hl]
    simp [State.setPc, State.setLastRd]
  | two hl hb hr hs hi =>
    obtain ⟨ne0, at0⟩ := h 0 (by omega)
    obtain ⟨ne1, at1⟩ := h 1 (by omega)
    rw [BitVec.add_zero] at ne0 at0
    rw [hb] at at0 at1
    have fetch1 := fetch8_of_peek (s := (s.setLastRd s.pc).setPc (s.pc + 1#16)) at1 ne1
    simp only [fetchInstr, fetch8_of_peek at0 ne0, hr, hs, fetchOperand, fetch1, hi, hl]
    simp [State.setPc, State.setLastRd, BitVec.add_assoc]
  | three hl hb hr hs hi =>
    obtain ⟨ne0, at0⟩ := h 0 (by omega)
    obtain ⟨ne1, at1⟩ := h 1 (by omega)
    obtain ⟨ne2, at2⟩ := h 2 (by omega)
    rw [BitVec.add_zero] at ne0 at0
    rw [hb] at at0 at1 at2
    have next : s.pc + 1#16 + 1#16 = s.pc + 2#16 := BitVec.add_assoc _ _ _
    have fetch1 := fetch16_of_peek (s := (s.setLastRd s.pc).setPc (s.pc + 1#16)) at1 ne1
      (next ▸ at2) (next ▸ ne2)
    simp only [fetchInstr, fetch8_of_peek at0 ne0, hr, hs, fetchOperand, fetch1, mkWord_hi_lo, hi, hl]
    simp [State.setPc, State.setLastRd, BitVec.add_assoc]

end Sys2Proof.Machine

namespace Sys2Proof

open Machine

/-- With no NMI to take, a step is the fetch and what it gives (R310). -/
theorem step_of_not_nmiTaken {s : State} (h : nmiTaken s = false) : step s = fetchAndExec s :=
  step_eq_fetchAndExec (by simp [nmiPrelude, h])

/-- Settles O21. -/
theorem stepRunsDecodedInstruction : Obligations.StepRunsDecodedInstruction := by
  constructor
  · intro s i hn hcode
    rw [step_of_not_nmiTaken hn, fetchAndExec, fetchInstr_of_codeAt hcode]
  · intro s t i hn hf
    rw [step_of_not_nmiTaken hn, fetchAndExec, hf]

end Sys2Proof
end

section
/-! What each access of the bus does, region by region and port by port (`20_memory.md` R70 to R96, R110 to R114). -/

namespace Sys2Proof.Machine

/-! Words. -/

theorem toNat_mkWord (h l : Byte) : (mkWord h l).toNat = 256 * h.toNat + l.toNat := by
  rw [mkWord, BitVec.toNat_append, ← Nat.shiftLeft_add_eq_or_of_lt l.isLt, Nat.shiftLeft_eq, Nat.mul_comm]

/-- `(h << 8) | l` (`00_scope.md` R7). -/
theorem mkWord_eq_or (h l : Byte) : mkWord h l = (h.setWidth 16 <<< 8) ||| l.setWidth 16 := by
  rw [← BitVec.setWidth_append_eq_shiftLeft_setWidth_or, BitVec.setWidth_eq, mkWord]

theorem mkWord_and_mkWord (h l h' l' : Byte) : mkWord h l &&& mkWord h' l' = mkWord (h &&& h') (l &&& l') :=
  BitVec.and_append

theorem mkWord_or_mkWord (h l h' l' : Byte) : mkWord h l ||| mkWord h' l' = mkWord (h ||| h') (l ||| l') :=
  BitVec.or_append

theorem setWidth_eq_mkWord (v : Byte) : v.setWidth 16 = mkWord 0#8 v := by simp [mkWord_eq_or]

theorem shiftLeft_eq_mkWord (v : Byte) : v.setWidth 16 <<< 8 = mkWord v 0#8 := by simp [mkWord_eq_or]

/-- Replacing the high byte of a word (R94). -/
theorem mkWord_loByte_eq (v : Byte) (w : Word) :
    mkWord v (loByte w) = (w &&& 0x00FF#16) ||| (v.setWidth 16 <<< 8) := by
  have mask : w &&& 0x00FF#16 = mkWord 0#8 (loByte w) := by
    conv_lhs => rw [← mkWord_hi_lo w, show 0x00FF#16 = mkWord 0x00#8 (BitVec.allOnes 8) from rfl, mkWord_and_mkWord]
    rw [BitVec.and_zero, BitVec.and_allOnes]
  rw [mask, shiftLeft_eq_mkWord, mkWord_or_mkWord, BitVec.zero_or, BitVec.or_zero]

/-- Replacing the low byte of a word (R94). -/
theorem mkWord_hiByte_eq (v : Byte) (w : Word) : mkWord (hiByte w) v = (w &&& 0xFF00#16) ||| v.setWidth 16 := by
  have mask : w &&& 0xFF00#16 = mkWord (hiByte w) 0#8 := by
    conv_lhs => rw [← mkWord_hi_lo w, show 0xFF00#16 = mkWord (BitVec.allOnes 8) 0x00#8 from rfl, mkWord_and_mkWord]
    rw [BitVec.and_zero, BitVec.and_allOnes]
  rw [mask, setWidth_eq_mkWord, mkWord_or_mkWord, BitVec.zero_or, BitVec.or_zero]

/-! Reads. -/

/-- A read outside the status port changes `LAST_RD` only (R70). -/
theorem read8_plain {a : Word} {s : State} {v : Byte} (hv : busValue a s = .ok v) (ha : a ≠ 0x2002#16) :
    read8 a s = .ok (v, s.setLastRd a) := by
  rw [read8_of_value hv, readEffect_plain ha]

/-- The status port lies in the I/O range. -/
theorem ne_portStatus_of_above_io {a : Word} (h : 0x4020 ≤ a.toNat) : a ≠ 0x2002#16 := by
  rintro rfl
  exact absurd h (by decide)

/-- A read of the status port gives the status and clears its bit 7 (R86). -/
theorem read8_status (s : State) :
    read8 0x2002#16 s = .ok (s.ppustatus, (s.setLastRd 0x2002#16).setPpustatus (s.ppustatus &&& 0x7F#8)) := by
  rw [read8_of_value (busValue_io (by decide) (by decide) s), if_pos rfl, readEffect_eq, if_pos rfl]
  rfl

/-! Writes of the ports. -/

/-- An I/O address that is no port with an effect takes nothing (R90, R93). -/
theorem ioWrite_ignored {a : Word} (hc : a ≠ 0x2000#16) (hm : a ≠ 0x2001#16) (hv : a ≠ 0x2006#16)
    (hd : a ≠ 0x2007#16) (hs : a ≠ 0x4014#16) (v : Byte) (s : State) : ioWrite a v s = .ok s := by
  simp only [ioWrite, if_neg hc, if_neg hm, if_neg hv, if_neg hd, if_neg hs, ite_self]

theorem write8_ignored {a : Word} (h : 0x2000 ≤ a.toNat) (hc : a ≠ 0x2000#16) (hm : a ≠ 0x2001#16)
    (hv : a ≠ 0x2006#16) (hd : a ≠ 0x2007#16) (hs : a ≠ 0x4014#16) (v : Byte) (s : State) :
    write8 a v s = .ok (s.setLastWr a) := by
  by_cases io : a.toNat < 0x4020
  · rw [write8_io h io, ioWrite_ignored hc hm hv hd hs]
  · exact write8_expansion (by omega) v s

theorem write8_ctrl (v : Byte) (s : State) :
    write8 0x2000#16 v s = .ok ((s.setLastWr 0x2000#16).setPpuctrl v) :=
  write8_io (by decide) (by decide) v s

theorem write8_mask (v : Byte) (s : State) :
    write8 0x2001#16 v s = .ok ((s.setLastWr 0x2001#16).setPpumask v) :=
  write8_io (by decide) (by decide) v s

theorem write8_vaddr (v : Byte) (s : State) : write8 0x2006#16 v s = .ok (writeVaddr v (s.setLastWr 0x2006#16)) :=
  write8_io (by decide) (by decide) v s

theorem write8_vdata (v : Byte) (s : State) : write8 0x2007#16 v s = writeVdata v (s.setLastWr 0x2007#16) :=
  write8_io (by decide) (by decide) v s

theorem write8_dma (v : Byte) (s : State) : write8 0x4014#16 v s = spriteDma v (s.setLastWr 0x4014#16) :=
  write8_io (by decide) (by decide) v s

/-- The first write of a pair gives the high byte of the pointer (R94). -/
theorem write8_vaddr_high {s : State} (h : s.w = false) (v : Byte) :
    write8 0x2006#16 v s =
      .ok (((s.setLastWr 0x2006#16).setVaddr (mkWord v (loByte s.vaddr))).setW true) := by
  simp [write8_vaddr, writeVaddr, h]

/-- The second write of a pair gives the low byte (R94). -/
theorem write8_vaddr_low {s : State} (h : s.w = true) (v : Byte) :
    write8 0x2006#16 v s =
      .ok (((s.setLastWr 0x2006#16).setVaddr (mkWord (hiByte s.vaddr) v)).setW false) := by
  simp [write8_vaddr, writeVaddr, h]

/-! Picture-Memory. -/

theorem pmemDecode_pt0 {p : Word} (h : p.toNat ≤ 0x0FFF) : pmemDecode p = (.pt0, p.toNat) := by
  simp only [pmemDecode, if_neg (show ¬ 0x3F00 ≤ p.toNat by omega), if_neg (show ¬ 0x2000 ≤ p.toNat by omega),
    if_neg (show ¬ 0x1000 ≤ p.toNat by omega)]

theorem pmemDecode_pt1 {p : Word} (h : 0x1000 ≤ p.toNat) (h' : p.toNat ≤ 0x1FFF) :
    pmemDecode p = (.pt1, p.toNat - 0x1000) := by
  simp only [pmemDecode, if_neg (show ¬ 0x3F00 ≤ p.toNat by omega), if_neg (show ¬ 0x2000 ≤ p.toNat by omega),
    if_pos h]

theorem pmemDecode_nt {p : Word} (h : 0x2000 ≤ p.toNat) (h' : p.toNat ≤ 0x3EFF) :
    pmemDecode p = (.nt, p.toNat - 0x2000) := by
  simp only [pmemDecode, if_neg (show ¬ 0x3F00 ≤ p.toNat by omega), if_pos h]

theorem pmemDecode_pal {p : Word} (h : 0x3F00 ≤ p.toNat) : pmemDecode p = (.pal, p.toNat - 0x3F00) := by
  simp only [pmemDecode, if_pos h]

/-- Where a region begins (R112). -/
def PRegion.base : PRegion → Nat
  | .pal => 0x3F00
  | .nt => 0x2000
  | .pt1 => 0x1000
  | .pt0 => 0

theorem toNat_eq_base_add (p : Word) : p.toNat = (pmemDecode p).1.base + (pmemDecode p).2 := by
  unfold pmemDecode
  split_ifs <;> simp only [PRegion.base] <;> omega

/-- No two addresses name one cell (R48). -/
theorem pmemDecode_injective {p q : Word} (h : pmemDecode p = pmemDecode q) : p = q :=
  BitVec.eq_of_toNat_eq (by rw [toNat_eq_base_add p, toNat_eq_base_add q, h])

theorem pmem_setPmem (s : State) (m : Memory) (r r' : PRegion) :
    (s.setPmem m r).pmem r' = if r' = r then m else s.pmem r' := by
  cases r <;> cases r' <;> rfl

theorem setPmem_eq (s : State) (m : Memory) (r : PRegion) :
    s.setPmem m r = { s with
      pt0 := (s.setPmem m r).pt0
      pt1 := (s.setPmem m r).pt1
      nt := (s.setPmem m r).nt
      pal := (s.setPmem m r).pal } := by
  cases r <;> rfl

theorem pmemWrite_of_exists {p : Word} (h : PictureMemoryExists p) (v : Byte) (s : State) :
    pmemWrite p v s =
      .ok (s.setPmem ((s.pmem (pmemDecode p).1).write (pmemDecode p).2 v) (pmemDecode p).1) :=
  if_pos ((pictureMemoryExists_iff p).1 h)

theorem pmemRead_of_exists {p : Word} (h : PictureMemoryExists p) (s : State) :
    pmemRead p s = .ok ((s.pmem (pmemDecode p).1).read (pmemDecode p).2) :=
  if_pos ((pictureMemoryExists_iff p).1 h)

theorem pmemWrite_of_not_exists {p : Word} (h : ¬ PictureMemoryExists p) (v : Byte) (s : State) :
    pmemWrite p v s = .error .pictureMemoryOutOfRange :=
  if_neg (mt (pictureMemoryExists_iff p).2 h)

theorem pmemRead_of_not_exists {p : Word} (h : ¬ PictureMemoryExists p) (s : State) :
    pmemRead p s = .error .pictureMemoryOutOfRange :=
  if_neg (mt (pictureMemoryExists_iff p).2 h)

/-- A write of Picture-Memory changes no other cell (R111, R48). -/
theorem read_setPmem_write_other {p q : Word} (hq : q ≠ p) (v : Byte) (s : State) :
    ((s.setPmem ((s.pmem (pmemDecode p).1).write (pmemDecode p).2 v) (pmemDecode p).1).pmem (pmemDecode q).1).read
      (pmemDecode q).2 = (s.pmem (pmemDecode q).1).read (pmemDecode q).2 := by
  by_cases region : (pmemDecode q).1 = (pmemDecode p).1
  · have offset : (pmemDecode q).2 ≠ (pmemDecode p).2 := fun e => hq (pmemDecode_injective (Prod.ext region e))
    rw [pmem_setPmem, if_pos region, region, Memory.read_write_other _ _ offset]
  · rw [pmem_setPmem, if_neg region]

/-- A data write at an address that exists: through to the array, then the pointer steps (R95). -/
theorem write8_vdata_of_exists {s : State} (h : PictureMemoryExists s.vaddr) (v : Byte) {r : PRegion} {k : Nat}
    (hd : pmemDecode s.vaddr = (r, k)) :
    write8 0x2007#16 v s = .ok { s.setPmem ((s.pmem r).write k v) r with
      lastWr := 0x2007#16, vaddr := s.vaddr + 1#16 } := by
  rw [write8_vdata, writeVdata, State.setLastWr_vaddr, pmemWrite_of_exists h, hd, ok_bind]
  cases r <;> rfl

theorem write8_vdata_of_not_exists {s : State} (h : ¬ PictureMemoryExists s.vaddr) (v : Byte) :
    write8 0x2007#16 v s = .error .pictureMemoryOutOfRange := by
  rw [write8_vdata, writeVdata, State.setLastWr_vaddr, pmemWrite_of_not_exists h, error_bind]

/-! Sprite DMA. -/

theorem spriteDma_of_ram {v : Byte} (h : v.toNat ≤ 7) (s : State) :
    spriteDma v s = .ok (s.setOam (s.ram.window (v.toNat * 0x100) 0x100)) :=
  if_neg (by simp only [Config.ramSize]; omega)

theorem spriteDma_of_not_ram {v : Byte} (h : 8 ≤ v.toNat) (s : State) : spriteDma v s = .error .dmaSourceOutOfRange :=
  if_pos (by simp only [Config.ramSize]; omega)

/-! What a snapshot shows. -/

/-- What an address shows depends on the one RAM byte there, the PRG banks, and at its port the status register. -/
theorem peek_congr {s t : State} {a : Word} (hr : t.ram.read a.toNat = s.ram.read a.toNat) (hl : t.prgLo = s.prgLo)
    (hh : t.prgHi = s.prgHi) (hp : a = 0x2002#16 → t.ppustatus = s.ppustatus) : t.peek a = s.peek a := by
  have status : ioValue a t = ioValue a s := by
    by_cases ha : a = 0x2002#16
    · simp only [ioValue, hp ha]
    · simp only [ioValue, if_neg ha]
  simp only [State.peek, busValue, status, hr, hl, hh]

/-- A bus write stores into RAM at an address of RAM and nowhere else (R81). -/
theorem write8_ram_eq {a : Word} {v : Byte} {s t : State} (h : write8 a v s = .ok t) :
    t.ram = if a.toNat < 0x0800 then s.ram.write a.toNat v else s.ram := by
  rcases write8_cases h with ⟨ha, rfl⟩ | ⟨ha, rfl⟩ | ⟨rfl, rfl⟩ | ⟨rfl, rfl⟩ | ⟨rfl, rfl⟩ | ⟨rfl, h⟩ | ⟨rfl, -, rfl⟩
  · exact (if_pos ha).symm
  · exact (if_neg (by omega)).symm
  · rfl
  · rfl
  · unfold writeVaddr
    split <;> rfl
  · obtain ⟨u, hu, rfl⟩ := writeVdata_eq_ok h
    obtain ⟨-, rfl⟩ := pmemWrite_eq_ok hu
    cases (pmemDecode (s.setLastWr 0x2007#16).vaddr).1 <;> rfl
  · rfl

end Sys2Proof.Machine

namespace Sys2Proof

open Machine

/-- Settles O8, region by region. -/
theorem busReadByRegion : Obligations.BusReadByRegion := by
  intro a s
  refine ⟨fun h => read8_ram (by omega) s, fun h => read8_hole h s, ?_, ?_, ?_, ?_, ?_⟩
  · rintro rfl
    exact read8_status s
  · rintro ⟨h, h', ha⟩
    exact read8_plain (by rw [busValue_io h (by omega), if_neg ha]) ha
  · rintro ⟨h, h'⟩
    exact read8_plain (busValue_expansion h (by omega) s) (ne_portStatus_of_above_io h)
  · rintro ⟨h, h'⟩
    exact read8_plain (busValue_prgLo h (by omega) s) (ne_portStatus_of_above_io (by omega))
  · exact fun h => read8_prgHi h s

/-- Settles O9, region by region and port by port. -/
theorem busWriteByRegion : Obligations.BusWriteByRegion := by
  intro a v s
  refine ⟨fun h => write8_ram (by omega) v s, fun h => write8_hole h v s, ?_, ?_, ?_, ?_, ?_⟩
  · rintro rfl
    exact write8_ctrl v s
  · rintro rfl
    exact write8_mask v s
  · rintro ⟨rfl, hw⟩
    rw [write8_vaddr_high hw, mkWord_loByte_eq]
    rfl
  · rintro ⟨rfl, hw⟩
    rw [write8_vaddr_low hw, mkWord_hiByte_eq]
    rfl
  · rintro ⟨h, hc, hm, hv, hd, hs⟩
    exact write8_ignored h hc hm hv hd hs v s

/-- Settles O10: the second write keeps the high byte of the first and brings the toggle back. -/
theorem vramAddressTakesTwoWrites : Obligations.VramAddressTakesTwoWrites := by
  intro h l s hw
  refine ⟨_, _, write8_vaddr_high hw h, rfl, write8_vaddr_low rfl l, ?_⟩
  apply State.ext <;> simp [hw]

/-- Settles O11, region by region. -/
theorem dataPortWritesThrough : Obligations.DataPortWritesThrough := by
  intro v s
  refine ⟨fun h => ?_, fun ⟨h, h'⟩ => ?_, fun ⟨h, h'⟩ => ?_, fun ⟨h, h'⟩ => ?_, fun h => ?_⟩
  · exact write8_vdata_of_exists (.inl (by omega)) v (pmemDecode_pt0 h)
  · exact write8_vdata_of_exists (.inl (by omega)) v (pmemDecode_pt1 h h')
  · exact write8_vdata_of_exists (.inl h') v (pmemDecode_nt h (by omega))
  · exact write8_vdata_of_exists (.inr ⟨h, h'⟩) v (pmemDecode_pal h)
  · exact write8_vdata_of_not_exists (by simp only [PictureMemoryExists]; omega) v

/-- Settles O12: OAM becomes a window of RAM. -/
theorem spriteDmaCopiesPage : Obligations.SpriteDmaCopiesPage := by
  intro v s
  rw [write8_dma]
  refine ⟨fun h => ⟨_, spriteDma_of_ram h _, rfl, fun k hk => ?_, ?_, ?_⟩, fun h => spriteDma_of_not_ram h _⟩
  · rw [Nat.mul_comm 0x100]
    exact Memory.read_window _ _ _ k hk
  · exact fun hs => Memory.wf_window hs _ _
  · exact Memory.within_window _ _ _

/-- Settles O13: the range decode names every cell once. -/
theorem pictureMemoryReadAfterWrite : Obligations.PictureMemoryReadAfterWrite := by
  intro p v s
  refine ⟨fun h => ⟨_, pmemWrite_of_exists h v s, ?_, fun q hq => ?_, setPmem_eq _ _ _⟩,
    fun h => ⟨pmemRead_of_not_exists h s, pmemWrite_of_not_exists h v s⟩⟩
  · rw [pmemRead_of_exists h, pmem_setPmem, if_pos rfl, Memory.read_write_same]
  · by_cases exists_q : PictureMemoryExists q
    · rw [pmemRead_of_exists exists_q, pmemRead_of_exists exists_q, read_setPmem_write_other hq]
    · rw [pmemRead_of_not_exists exists_q, pmemRead_of_not_exists exists_q]

/-- Settles O14. -/
theorem wordReadsAreTwoByteReads : Obligations.WordReadsAreTwoByteReads := by
  refine ⟨fun a s s1 s2 lo hi hlo hhi => ?_, fun a s r hlo => ?_, fun a s s1 lo r hlo hhi => ?_, toNat_mkWord,
    fun z s => ?_⟩
  · simp only [read16, hlo, hhi, ok_bind]
  · simp only [read16, hlo, error_bind]
  · simp only [read16, hlo, hhi, ok_bind, error_bind]
  · have wrap : (z + 1#8).toNat = (z.toNat + 1) % 256 := by simp
    rw [read16ZP_eq, wrap]
    rfl

/-- Settles O15: a write changes one cell of RAM and nothing else of what an address shows. -/
theorem busReadAfterWrite : Obligations.BusReadAfterWrite := by
  intro a v s t h
  constructor
  · intro ha
    have stored : t.ram = s.ram.write a.toNat v := by rw [write8_ram_eq h, if_pos (by omega)]
    rw [State.peek, busValue_ram (by omega), stored, Memory.read_write_same]
  · intro b hb
    obtain ⟨-, -, -, -, -, -, -, -, hstatus, hlo, hhi, -⟩ := write8_registers h
    refine peek_congr ?_ hlo hhi fun _ => hstatus
    rw [write8_ram_eq h]
    split
    · exact Memory.read_write_other _ _ (mt BitVec.eq_of_toNat_eq hb)
    · rfl

end Sys2Proof
end

section
/-! The frame of an instruction that neither stores nor pushes (`40_addressing_modes.md` R175, R177). -/

namespace Sys2Proof.Machine

open Stated

/-- RAM, which a store or a push can change, and `LAST_WR`, which every bus write sets, are as before. -/
def SameRamAndLastWr (s t : State) : Prop := t.ram = s.ram ∧ t.lastWr = s.lastWr

theorem closedFor_sameRamAndLastWr {i : Instr} (hs : storesToMemory i = false) (hp : pushes i = false) :
    ClosedFor i SameRamAndLastWr where
  refl _ := ⟨rfl, rfl⟩
  trans := fun ⟨hram, hwr⟩ ⟨hram', hwr'⟩ => ⟨hram'.trans hram, hwr'.trans hwr⟩
  setA _ _ _ := ⟨rfl, rfl⟩
  setX _ _ _ := ⟨rfl, rfl⟩
  setY _ _ _ := ⟨rfl, rfl⟩
  setSp _ _ _ := ⟨rfl, rfl⟩
  setPc _ _ _ := ⟨rfl, rfl⟩
  setP _ := ⟨rfl, rfl⟩
  read a s := ⟨readEffect_ram a s, readEffect_lastWr a s⟩
  pushed h := nomatch hp.symm.trans h
  store h := nomatch hs.symm.trans h

end Sys2Proof.Machine

namespace Sys2Proof

open Machine

/-- Settles O59: without a write only registers change, and with a read `LAST_RD` and the status. -/
theorem noStoreFrame : Obligations.NoStoreFrame := by
  intro i s t hs hp h
  obtain ⟨hram, hwr⟩ := (closedFor_sameRamAndLastWr hs hp).exec h
  have hports : t.ports = s.ports := (closedFor_samePorts hs).exec h
  have frame : RegisterFrame i s t := (closedFor_registerFrame i).exec h
  refine ⟨?_, fun a ha => peek_congr (by rw [hram]) frame.prgLo frame.prgHi (absurd · ha),
    closed_statusKeptOrCleared.exec h⟩
  simp only [State.ports, Prod.mk.injEq] at hports
  obtain ⟨hctrl, hmask, hw, hvaddr, hpt0, hpt1, hnt, hpal, hoam⟩ := hports
  apply State.ext <;>
    simp only [hram, hwr, hctrl, hmask, hw, hvaddr, hpt0, hpt1, hnt, hpal, hoam, frame.prgLo, frame.prgHi,
      frame.nmiPending]

end Sys2Proof
end

section
/-! Encoding (`30_encoding.md`): the decoder's table and the encoder, written apart from the matrix of R134, say the
same, and so `PC` moves past what was decoded (R138). -/

namespace Sys2Proof

/-- The instruction a row's shape stands for, of the operand byte or the operand word (R131). -/
def Shape.instr : Shape → Byte → Word → Instr
  | .one i, _, _ => i
  | .two f, d, _ => f d
  | .three f, _, w => f w

/-- The bytes a shape takes after an opcode, that byte included (R131). -/
def Shape.bytes (opcode : Byte) : Shape → Byte → Word → List Byte
  | .one _, _, _ => [opcode]
  | .two _, d, _ => encode2 opcode d
  | .three _, _, w => encode3 opcode w

/-- Row by row, the encoder gives an instruction the bytes the decoder reads it from. -/
theorem encode_instr_of_mem {row : Row} (h : row ∈ opcodeTable) (d : Byte) (w : Word) :
    encode (row.shape.instr d w) = row.shape.bytes row.opcode d w :=
  have rowwise : opcodeTable.map (fun r => encode (r.shape.instr d w)) =
      opcodeTable.map (fun r => r.shape.bytes r.opcode d w) := rfl
  List.map_inj_left.1 rowwise row h

/-- A byte's row is a row of the table, for that byte. -/
theorem lookup_eq_some {b : Byte} {row : Row} (h : lookup b = some row) : row ∈ opcodeTable ∧ row.opcode = b :=
  ⟨List.mem_of_find?_eq_some h, eq_of_beq (List.find?_some (p := fun r : Row => r.opcode == b) h)⟩

theorem encode_instr_of_lookup {b : Byte} {row : Row} (h : lookup b = some row) (d : Byte) (w : Word) :
    encode (row.shape.instr d w) = row.shape.bytes b d w := by
  obtain ⟨hmem, rfl⟩ := lookup_eq_some h
  exact encode_instr_of_mem hmem d w

/-- Decoding inverts encoding, whatever follows. -/
theorem decode_encode (i : Instr) (rest : List Byte) : decode (encode i ++ rest) = .ok (i, rest) := by
  cases Machine.readsBack i with
  | one _ hb hr hs => simp [hb, decode, hr, hs]
  | two _ hb hr hs hi => simp [hb, encode2, decode, hr, hs, hi]
  | three _ hb hr hs hi => simp [hb, encode3, decode, hr, hs, hi]

/-- Bytes that decode are an opcode with a row, the operand of an instruction of the row's shape, and what is left. -/
theorem decode_cons_eq_ok {b : Byte} {bs rest : List Byte} {i : Instr} (h : decode (b :: bs) = .ok (i, rest)) :
    ∃ row d w, lookup b = some row ∧ i = row.shape.instr d w ∧ b :: bs = row.shape.bytes b d w ++ rest := by
  cases hrow : lookup b with
  | none => simp [decode, hrow] at h
  | some row =>
    refine ⟨row, ?_⟩
    simp only [decode, hrow] at h
    split at h
    next j rest' hs => cases h; exact ⟨0, 0, rfl, by rw [hs]; rfl, by rw [hs]; rfl⟩
    next f d rest' hs => cases h; exact ⟨d, 0, rfl, by rw [hs]; rfl, by rw [hs]; rfl⟩
    next f lo hi rest' hs =>
      cases h
      exact ⟨0, mkWord hi lo, rfl, by rw [hs]; rfl, by simp [hs, Shape.bytes, encode3]⟩
    next => cases h
    next => cases h

/-- Bytes that decode are the encoding of what they decode to, and what is left. -/
theorem eq_encode_append_of_decode {bs rest : List Byte} {i : Instr} (h : decode bs = .ok (i, rest)) :
    bs = encode i ++ rest := by
  cases bs with
  | nil => cases h
  | cons b bs =>
    obtain ⟨row, d, w, hrow, rfl, hbytes⟩ := decode_cons_eq_ok h
    rw [hbytes, encode_instr_of_lookup hrow]

/-- The matrix of R134 has a cell for every instruction, so none is malformed (R136). -/
theorem wellFormed_all (i : Instr) : i.wellFormed = true := by cases i <;> rfl

/-- Settles O18. -/
theorem decodeEncodeAgree : Obligations.DecodeEncodeAgree :=
  ⟨wellFormed_all, fun i rest _ => decode_encode i rest, fun _ _ _ => eq_encode_append_of_decode⟩

/-- When the table's opcodes are, in order, the bytes outside a list, the bytes on the list have no row and any other
has its own. -/
theorem lookup_map_opcode {listed : List Nat}
    (h : opcodeTable.map (fun r => r.opcode.toNat) = (List.range 256).filter fun n => !listed.contains n) (b : Byte) :
    (lookup b).map (fun r => r.opcode) = if listed.contains b.toNat then none else some b := by
  have mem_iff : (∃ r ∈ opcodeTable, r.opcode = b) ↔ listed.contains b.toNat = false := by
    have := congrArg (b.toNat ∈ ·) h
    simpa [BitVec.toNat_inj, b.isLt] using this
  cases hrow : lookup b with
  | none =>
    have hnone : ¬ ∃ r ∈ opcodeTable, r.opcode = b := by simpa [lookup] using hrow
    rw [mem_iff, Bool.not_eq_false] at hnone
    rw [if_pos hnone]
    rfl
  | some row =>
    have hnot := mem_iff.1 ⟨row, lookup_eq_some hrow⟩
    rw [if_neg (Bool.not_eq_true _ ▸ hnot), Option.map_some, (lookup_eq_some hrow).2]

/-- Settles O19: run over the 256 bytes, the table has a row just for those the list leaves out. -/
theorem unrecognisedOpcodes : Obligations.UnrecognisedOpcodes :=
  ⟨rfl, rfl, lookup_map_opcode (by decide +kernel)⟩

/-- Settles O20, by running the decoder on each word. -/
theorem sampleWordsDecode : Obligations.SampleWordsDecode :=
  ⟨rfl, rfl, rfl, rfl, rfl, rfl, rfl, rfl, rfl, rfl, rfl, rfl⟩

open Machine Stated

/-- A mnemonic with a condition is a branch on it, two bytes long (R174, R243 to R250). -/
theorem exec_of_branchCondition {i : Instr} {c : Bool} {s : State} (h : branchCondition i.mnemonic s.p = some c) :
    i.length = 2 ∧ ∃ d, exec i s = .next (branch c d s) := by
  cases i <;> cases h <;> exact ⟨rfl, _, rfl⟩

/-- Settles O22: the fetch puts `PC` past the instruction, and the operation leaves it there. -/
theorem pcAdvancesByLength : Obligations.PcAdvancesByLength := by
  intro s t i hn hcode h
  rw [stepRunsDecodedInstruction.1 s i hn hcode] at h
  constructor
  · intro hkeeps
    exact ((closedFor_registerFrame i).exec h).pc hkeeps
  · intro hcond
    obtain ⟨hlen, d, hbranch⟩ := exec_of_branchCondition (s := { s with
      pc := s.pc + BitVec.ofNat 16 i.length
      lastRd := s.pc + BitVec.ofNat 16 (i.length - 1) }) hcond
    rw [hbranch, hlen] at h
    cases h
    rfl

end Sys2Proof
end

section
/-! What the operand modes resolve to, as arithmetic (`40_addressing_modes.md` R165 to R173). -/

namespace Sys2Proof.Machine

/-! Index sums. -/

/-- An index added inside the zero page wraps there (R166, R167). -/
theorem zeroPage_add_eq (d x : Byte) : (d + x).setWidth 16 = BitVec.ofNat 16 ((d.toNat + x.toNat) % 256) := by
  rw [← BitVec.ofNat_toNat, BitVec.toNat_add]

/-- An index added to a word wraps at 16 bits (R169, R170). -/
theorem word_add_index_eq (w : Word) (x : Byte) : w + x.setWidth 16 = BitVec.ofNat 16 (w.toNat + x.toNat) := by
  rw [BitVec.ofNat_add, BitVec.ofNat_toNat, BitVec.ofNat_toNat, BitVec.setWidth_eq]

/-- The pointer of `(d,X)` and `(d),Y`, with the cells of its two bytes as numbers (R172, R173). -/
theorem read16ZP_of_toNat_eq {z : Byte} {n : Nat} (h : z.toNat = n) (s : State) :
    read16ZP z s = .ok (mkWord (s.ram.read ((n + 1) % 256)) (s.ram.read n),
      { s with lastRd := BitVec.ofNat 16 ((n + 1) % 256) }) := by
  subst h
  rw [read16ZP_eq, zeroPage_add_eq, BitVec.toNat_add]
  rfl

/-! The indirect pointer. -/

theorem loByte_eq_setWidth (w : Word) : loByte w = w.setWidth 8 :=
  (BitVec.setWidth_eq_extractLsb' (by decide)).symm

theorem and_low_mask (w : Word) : w &&& 0x00FF#16 = (loByte w).setWidth 16 := by
  rw [setWidth_eq_mkWord, mkWord_loByte_eq]
  simp

/-- The spec's formula for the second pointer address (R171). -/
theorem samePageNext_eq (w : Word) : samePageNext w = (w &&& 0xFF00#16) ||| ((w + 1#16) &&& 0x00FF#16) := by
  have low : loByte (w + 1#16) = loByte w + 1#8 := by
    rw [loByte_eq_setWidth, loByte_eq_setWidth, BitVec.setWidth_add _ _ (by decide)]
    rfl
  rw [samePageNext, mkWord_hiByte_eq, and_low_mask, low]

theorem effAddr_ind {w : Word} {s s1 s2 : State} {lo hi : Byte} (hlo : read8 w s = .ok (lo, s1))
    (hhi : read8 (samePageNext w) s1 = .ok (hi, s2)) : effAddr (.ind w) s = .ok (mkWord hi lo, s2) := by
  simp only [effAddr, hlo, hhi, ok_bind]

/-- A jump to a mode that resolves changes `PC` and what resolving changed (R240). -/
theorem jumpTo_of_effAddr {m : Mem} {s t : State} {ea : Word} (h : effAddr m s = .ok (ea, t)) :
    jumpTo m s = .next { t with pc := ea } := jumpTo_eq_next.2 ⟨ea, t, h, rfl⟩

end Sys2Proof.Machine

namespace Sys2Proof

open Machine

/-- Settles O16, mode by mode. -/
theorem effectiveAddresses : Obligations.EffectiveAddresses := by
  intro d w s
  refine ⟨?_, ?_, ?_, rfl, ?_, ?_, ?_, ?_⟩
  · rw [effAddr, BitVec.ofNat_toNat]
  · rw [effAddr, zeroPage_add_eq]
  · rw [effAddr, zeroPage_add_eq]
  · rw [effAddr, word_add_index_eq]
  · rw [effAddr, word_add_index_eq]
  · exact read16ZP_of_toNat_eq (BitVec.toNat_add d s.x) s
  · simp only [effAddr, read16ZP_of_toNat_eq (rfl : d.toNat = _), ok_bind, word_add_index_eq, toNat_mkWord]

/-- Settles O17: outside the hole both pointer reads give a byte. -/
theorem indirectPointerStaysInPage : Obligations.IndirectPointerStaysInPage := by
  intro w s hw hnext
  rw [← samePageNext_eq] at hnext ⊢
  obtain ⟨lo, hlo⟩ := busValue_ok hw s
  obtain ⟨hi, hhi⟩ := busValue_ok hnext (readEffect w s)
  have readLo := read8_of_value hlo
  have readHi := read8_of_value hhi
  exact ⟨lo, hi, _, _, readLo, readHi, effAddr_ind readLo readHi⟩

/-- Settles O46: a jump goes where its mode resolves to. -/
theorem jumpInstructions : Obligations.JumpInstructions := by
  refine ⟨fun w s => rfl, fun w s hw hnext => ?_⟩
  obtain ⟨lo, hi, s1, s2, readLo, readHi, resolved⟩ := indirectPointerStaysInPage w s hw hnext
  exact ⟨lo, hi, s1, s2, readLo, readHi, jumpTo_of_effAddr resolved⟩

end Sys2Proof
end

section
/-! Branches (`44_control_flow.md` R243 to R251): the relative operand and the condition. -/

namespace Sys2Proof

open Machine Stated

/-- A relative instruction with a condition branches on it by its operand (R174, R251). -/
theorem exec_branch {i : Instr} {d : Byte} {c : Bool} {s : State} (ho : operandOf i = .relative d)
    (hc : branchCondition i.mnemonic s.p = some c) : exec i s = .next (branch c d s) := by
  cases i <;> cases ho <;> cases hc <;> rfl

theorem branch_eq (c : Bool) (d : Byte) (s : State) :
    branch c d s = { s with pc := if c then s.pc + BitVec.ofInt 16 d.toInt else s.pc } := by
  cases c <;> rfl

/-- Settles O50. -/
theorem branchInstructions : Obligations.BranchInstructions := by
  intro i s d c ho hc
  rw [exec_branch ho hc, branch_eq]

/-- Settles O51, instruction by instruction. -/
theorem relativeInstructionsAreBranches : Obligations.RelativeInstructionsAreBranches := by
  intro i p
  constructor
  · rintro ⟨d, ho⟩
    cases i <;> cases ho <;> rfl
  · intro h
    cases i with
    | bcc d | bcs d | beq d | bne d | bmi d | bpl d | bvc d | bvs d => exact ⟨d, rfl⟩
    | _ => cases h

end Sys2Proof
end

section
/-! What an operation makes of the status byte, in the terms the statements use: each flag given or kept. -/

namespace Sys2Proof.Stated

open Machine

variable {p q : Byte} {n v z c : Option Bool}

theorem Flags.refl (p : Byte) : Flags p p none none none none := ⟨rfl, rfl, rfl, rfl, rfl, rfl, rfl, rfl⟩

/-- A write of one of N, V, Z, C gives that flag and keeps what was said of the others (R23). -/
theorem Flags.writeBit {k : Nat} (hk : k ≤ 1 ∨ 6 ≤ k) (h : Flags p q n v z c) (b : Bool) :
    Flags p (setFlag k b q) (if 7 = k then some b else n) (if 6 = k then some b else v)
      (if 1 = k then some b else z) (if 0 = k then some b else c) := by
  have given j (hj : j < 8) {o : Option Bool} (e : q.getLsbD j = o.getD (p.getLsbD j)) :
      (setFlag k b q).getLsbD j = (if j = k then some b else o).getD (p.getLsbD j) := by
    rw [getLsbD_setFlag k j b q hj, e]
    split <;> rfl
  have kept j (hj : 2 ≤ j ∧ j ≤ 5) (e : q.getLsbD j = p.getLsbD j) : (setFlag k b q).getLsbD j = p.getLsbD j := by
    rw [getLsbD_setFlag k j b q (by omega), if_neg (by omega), e]
  obtain ⟨hN, hV, hZ, hC, hI, hD, hB, hU⟩ := h
  exact ⟨given 7 (by decide) hN, given 6 (by decide) hV, given 1 (by decide) hZ, given 0 (by decide) hC,
    kept 2 (by decide) hI, kept 3 (by decide) hD, kept 4 (by decide) hB, kept 5 (by decide) hU⟩

theorem Flags.writeC (h : Flags p q n v z c) (b : Bool) : Flags p (setC b q) n v z (some b) :=
  h.writeBit (k := 0) (by decide) b

theorem Flags.writeV (h : Flags p q n v z c) (b : Bool) : Flags p (setV b q) n (some b) z c :=
  h.writeBit (k := 6) (by decide) b

theorem Flags.writeZ (h : Flags p q n v z c) (b : Bool) : Flags p (setZ b q) n v (some b) c :=
  h.writeBit (k := 1) (by decide) b

theorem Flags.writeN (h : Flags p q n v z c) (b : Bool) : Flags p (setN b q) (some b) v z c :=
  h.writeBit (k := 7) (by decide) b

/-- `SetZN` gives Z and N and keeps what was said of V and C (R36). -/
theorem Flags.writeZN (h : Flags p q n v z c) (r : Byte) : FlagsZN p (setZN r q) r v c :=
  (h.writeZ (r == 0x00#8)).writeN (r.getLsbD 7)

theorem flagsZN_setZN (r p : Byte) : FlagsZN p (setZN r p) r none none := (Flags.refl p).writeZN r

theorem flagsZN_setZN_setC (r p : Byte) (b : Bool) : FlagsZN p (setZN r (setC b p)) r none (some b) :=
  ((Flags.refl p).writeC b).writeZN r

/-- ADC and SBC write the carry, the overflow, then Z and N (R200, R201). -/
theorem flagsZN_setZN_setV_setC (r p : Byte) (bv bc : Bool) :
    FlagsZN p (setZN r (setV bv (setC bc p))) r (some bv) (some bc) :=
  (((Flags.refl p).writeC bc).writeV bv).writeZN r

theorem flags_bitTest (a m p : Byte) :
    Flags p (bitTest a m p) (some (m.getLsbD 7)) (some (m.getLsbD 6)) (some (a &&& m == 0x00#8)) none :=
  (((Flags.refl p).writeZ _).writeN _).writeV _

end Sys2Proof.Stated
end

section
/-! Instructions that read their operand (`40_addressing_modes.md` R164, R175): what the operation is applied to. -/

namespace Sys2Proof.Machine

/-- `i` from `s` applies its read operation to the byte `v` in the state `base`, which has the registers of `s`. -/
structure ReadsOperand (i : Instr) (s base : State) (v : Byte) : Prop where
  a : base.a = s.a
  x : base.x = s.x
  y : base.y = s.y
  p : base.p = s.p
  exec : ∀ f, readOp i.mnemonic = some f → Machine.exec i s = .next (f v base)

theorem readsOperand_immediate {i : Instr} {v : Byte} (ho : operandOf i = .immediate v) (s : State) :
    ReadsOperand i s s v := ⟨rfl, rfl, rfl, rfl, fun _ h => exec_read_immediate h ho s⟩

/-- Outside the hole a memory operand is the byte the bus shows, read once (R175). -/
theorem readsOperand_memory {i : Instr} {s t : State} {m : Mem} {ea : Word} (ho : operandOf i = .memory m)
    (he : effAddr m s = .ok (ea, t)) (hole : ¬ Hole ea) :
    ∃ v, busValue ea t = .ok v ∧ ReadsOperand i s (readEffect ea t) v := by
  obtain ⟨v, hv⟩ := busValue_ok hole t
  have applied f (h : readOp i.mnemonic = some f) : exec i s = .next (f v (readEffect ea t)) := by
    rw [exec_read_memory h ho]
    exact readClass_eq_next.2 ⟨ea, t, v, he, hv, rfl⟩
  obtain rfl | ⟨a, rfl⟩ | ⟨w, -, rfl⟩ := effAddr_eq_ok he
  all_goals exact ⟨v, hv, by simp, by simp, by simp, by simp, applied⟩

end Sys2Proof.Machine

namespace Sys2Proof

open Machine Stated

/-- What `LoadInstructions` says of one instruction, its operand byte and the state its access left (R180 to R182). -/
theorem loads_of_readsOperand {i : Instr} {s base : State} {v : Byte} (h : ReadsOperand i s base v) :
    ∃ q, FlagsZN s.p q v none none ∧
      (i.mnemonic = .LDA → exec i s = .next { base with a := v, p := q }) ∧
      (i.mnemonic = .LDX → exec i s = .next { base with x := v, p := q }) ∧
      (i.mnemonic = .LDY → exec i s = .next { base with y := v, p := q }) :=
  ⟨setZN v base.p, h.p ▸ flagsZN_setZN v base.p,
    fun hm => h.exec loadA (hm ▸ rfl), fun hm => h.exec loadX (hm ▸ rfl), fun hm => h.exec loadY (hm ▸ rfl)⟩

/-- Settles O33: a load applies `SetZN` to its operand, an immediate or the byte of one read. -/
theorem loadInstructions : Obligations.LoadInstructions := by
  refine ⟨fun i s v ho => loads_of_readsOperand (readsOperand_immediate ho s), fun i s t m ea ho he hole => ?_⟩
  obtain ⟨v, hv, reads⟩ := readsOperand_memory ho he hole
  obtain ⟨q, loads⟩ := loads_of_readsOperand reads
  exact ⟨v, q, hv, loads⟩

/-- What `LogicInstructions` says of one instruction, its operand byte and the state its access left (R202 to R204). -/
theorem logic_of_readsOperand {i : Instr} {s base : State} {m : Byte} (h : ReadsOperand i s base m) :
    (i.mnemonic = .AND → ∃ q, FlagsZN s.p q (s.a &&& m) none none ∧
      exec i s = .next { base with a := s.a &&& m, p := q }) ∧
    (i.mnemonic = .ORA → ∃ q, FlagsZN s.p q (s.a ||| m) none none ∧
      exec i s = .next { base with a := s.a ||| m, p := q }) ∧
    (i.mnemonic = .EOR → ∃ q, FlagsZN s.p q (s.a ^^^ m) none none ∧
      exec i s = .next { base with a := s.a ^^^ m, p := q }) := by
  rw [← h.a, ← h.p]
  exact ⟨fun hm => ⟨_, flagsZN_setZN _ _, h.exec andOp (hm ▸ rfl)⟩,
    fun hm => ⟨_, flagsZN_setZN _ _, h.exec oraOp (hm ▸ rfl)⟩,
    fun hm => ⟨_, flagsZN_setZN _ _, h.exec eorOp (hm ▸ rfl)⟩⟩

/-- Settles O40. -/
theorem logicInstructions : Obligations.LogicInstructions := by
  refine ⟨fun i s v ho => logic_of_readsOperand (readsOperand_immediate ho s), fun i s t m ea ho he hole => ?_⟩
  obtain ⟨v, hv, reads⟩ := readsOperand_memory ho he hole
  exact ⟨v, hv, logic_of_readsOperand reads⟩

/-- Settles O41. -/
theorem bitTestInstructions : Obligations.BitTestInstructions := by
  intro i s t m ea hm ho he hole
  obtain ⟨v, hv, reads⟩ := readsOperand_memory ho he hole
  refine ⟨v, _, hv, ?_, reads.exec bitOp (hm ▸ rfl)⟩
  rw [reads.a, reads.p]
  exact flags_bitTest s.a v s.p

/-- Settles O36: the operation looks at `A`, the operand and the carry, and at nothing else of `P`. -/
theorem addWithCarry : Obligations.AddWithCarry := by
  refine ⟨fun s v => ⟨addOp v s, rfl, ⟨rfl, flagsZN_setZN_setV_setC _ _ _ _⟩, rfl⟩, ?_⟩
  intro i s t m ea hm ho he hole
  obtain ⟨v, hv, reads⟩ := readsOperand_memory ho he hole
  refine ⟨v, addOp v (readEffect ea t), hv, reads.exec addOp (hm ▸ rfl), ?_, rfl⟩
  dsimp only
  rw [← reads.a, ← reads.p]
  exact ⟨rfl, flagsZN_setZN_setV_setC _ _ _ _⟩

/-- The difference of SBC as a signed integer (R201). -/
theorem toNat_sbc (a m p : Byte) :
    ((sbc a m p).1.toNat : Int) = ((a.toNat : Int) - m.toNat - (1 - (getC p).toNat)) % 256 := by
  rw [sbc, BitVec.toNat_ofInt]
  exact Int.toNat_of_nonneg (Int.emod_nonneg _ (by decide))

/-- Settles O37. -/
theorem subtractWithBorrow : Obligations.SubtractWithBorrow := by
  refine ⟨fun s v => ⟨subOp v s, rfl, ⟨toNat_sbc _ _ _, flagsZN_setZN_setV_setC _ _ _ _⟩, rfl⟩, ?_⟩
  intro i s t m ea hm ho he hole
  obtain ⟨v, hv, reads⟩ := readsOperand_memory ho he hole
  refine ⟨v, subOp v (readEffect ea t), hv, reads.exec subOp (hm ▸ rfl), ?_, rfl⟩
  dsimp only
  rw [← reads.a, ← reads.p]
  exact ⟨toNat_sbc _ _ _, flagsZN_setZN_setV_setC _ _ _ _⟩

end Sys2Proof
end

section
/-! Increments, decrements, shifts and rotates as arithmetic (`43_incdec_shift.md` R220 to R229). -/

namespace Sys2Proof.Machine

open Stated

theorem getLsbD_seven (v : Byte) : v.getLsbD 7 = decide (128 ≤ v.toNat) :=
  (BitVec.msb_eq_getLsbD_last v).symm.trans (BitVec.msb_eq_decide v)

theorem getLsbD_zero (v : Byte) : v.getLsbD 0 = decide (v.toNat % 2 = 1) := Nat.testBit_zero v.toNat

theorem toNat_double (v : Byte) : (v <<< 1).toNat = 2 * v.toNat % 256 := by
  rw [BitVec.toNat_shiftLeft, Nat.shiftLeft_eq, Nat.mul_comm]

theorem toNat_half (v : Byte) : (v >>> 1).toNat = v.toNat / 2 := Nat.shiftRight_eq_div_pow _ _

/-- The carry comes in at the bit the shift left free (R228). -/
theorem toNat_rol (v p : Byte) : (rol v p).1.toNat = (2 * v.toNat + (getC p).toNat) % 256 := by
  have free : v <<< 1 &&& 0x01#8 = 0#8 := (BitVec.and_twoPow (v <<< 1) 0).trans (if_neg (by simp))
  rw [rol]
  cases getC p with
  | false => rw [if_neg nofun, BitVec.or_zero, toNat_double]; rfl
  | true =>
    rw [if_pos rfl, ← BitVec.add_eq_or_of_and_eq_zero _ _ free, BitVec.toNat_add, toNat_double]
    exact Nat.mod_add_mod _ _ _

/-- The carry comes in at the bit the shift left free (R229). -/
theorem toNat_ror (v p : Byte) : (ror v p).1.toNat = v.toNat / 2 + 128 * (getC p).toNat := by
  have free : v >>> 1 &&& 0x80#8 = 0#8 := (BitVec.and_twoPow (v >>> 1) 7).trans (if_neg (by simp))
  have fits : v.toNat / 2 + 128 < 256 := by omega
  rw [ror]
  cases getC p with
  | false => rw [if_neg nofun, BitVec.or_zero, toNat_half]; rfl
  | true =>
    rw [if_pos rfl, ← BitVec.add_eq_or_of_and_eq_zero _ _ free, BitVec.toNat_add, toNat_half]
    exact Nat.mod_eq_of_lt fits

/-- The operation of a read-modify-write mnemonic gives the result and carry of `rmwResult`, Z and N. -/
theorem rmwOp_of_rmwResult {m : Mnemonic} {v p : Byte} {n : Nat} {c : Option Bool}
    (h : rmwResult m v.toNat (getC p).toNat = some (n, c)) :
    ∃ f, rmwOp m = some f ∧ (f v p).1.toNat = n ∧ FlagsZN p (f v p).2 (f v p).1 none c := by
  cases m with
  | INC => cases h; exact ⟨inc, rfl, BitVec.toNat_add v 1#8, flagsZN_setZN _ _⟩
  | DEC => cases h; exact ⟨dec, rfl, by rw [dec]; bv_omega, flagsZN_setZN _ _⟩
  | ASL => cases h; exact ⟨asl, rfl, toNat_double v, getLsbD_seven v ▸ flagsZN_setZN_setC _ _ _⟩
  | LSR => cases h; exact ⟨lsr, rfl, toNat_half v, getLsbD_zero v ▸ flagsZN_setZN_setC _ _ _⟩
  | ROL => cases h; exact ⟨rol, rfl, toNat_rol v p, getLsbD_seven v ▸ flagsZN_setZN_setC _ _ _⟩
  | ROR => cases h; exact ⟨ror, rfl, toNat_ror v p, getLsbD_zero v ▸ flagsZN_setZN_setC _ _ _⟩
  | _ => cases h

theorem operandOf_of_mode_acc {i : Instr} (h : i.mode = .ACC) : operandOf i = .accumulator := by
  cases i <;> cases h <;> rfl

end Sys2Proof.Machine

namespace Sys2Proof

open Machine Stated

/-- Settles O44. -/
theorem accumulatorShifts : Obligations.AccumulatorShifts := by
  intro i s n c hmode hr
  obtain ⟨f, hf, hn, flags⟩ := rmwOp_of_rmwResult hr
  exact ⟨_, _, hn, flags, exec_rmw_accumulator hf (operandOf_of_mode_acc hmode) s⟩

/-- Settles O45: the byte written is the operation's result, and its flags come after the write. -/
theorem readModifyWriteInstructions : Obligations.ReadModifyWriteInstructions := by
  intro i s t m ea v r c ho he hv hr haccepted
  obtain ⟨f, hf, hn, flags⟩ := rmwOp_of_rmwResult hr
  obtain rfl : (f v s.p).1 = r := BitVec.eq_of_toNat_eq hn
  obtain ⟨u, hu⟩ := (write8_ok_iff _ _ _).2 haccepted
  refine ⟨u, _, hu, flags, ?_⟩
  rw [exec_rmw_memory hf ho]
  exact rmwClass_eq_next.2 ⟨ea, t, v, u, he, hv, hu, rfl⟩

end Sys2Proof
end

section
/-! Instructions that store to their effective address (`40_addressing_modes.md` R175 to R177). -/

namespace Sys2Proof.Machine

open Stated

/-- Where the mode resolves, a store is the one bus write. -/
theorem writeClass_of_effAddr {m : Mem} {s t : State} {ea : Word} (h : effAddr m s = .ok (ea, t)) (v : Byte) :
    writeClass m v s = finish (write8 ea v t) := by
  rw [writeClass, h, ok_bind]

/-- A store writes once to its effective address, a read-modify-write instruction reads there first; only flags
come after the write (R175, R230). -/
theorem exec_store_at {i : Instr} (hi : storesToMemory i = true) {m : Mem} {s t u : State} {ea : Word}
    (ho : operandOf i = .memory m) (he : effAddr m s = .ok (ea, t)) (h : exec i s = .next u) :
    ∃ v t' w p, (t' = t ∨ t' = readEffect ea t) ∧ write8 ea v t' = .ok w ∧ u = w.setP p := by
  cases hs : storedReg i.mnemonic with
  | some r =>
    rw [exec_store hs ho, writeClass_of_effAddr he, finish_eq_next] at h
    exact ⟨_, t, u, u.p, .inl rfl, h, rfl⟩
  | none =>
  cases hm : rmwOp i.mnemonic with
  | some f =>
    rw [exec_rmw_memory hm ho, rmwClass_eq_next] at h
    obtain ⟨ea', t', v, w, he', -, hw, rfl⟩ := h
    cases he.symm.trans he'
    exact ⟨_, _, w, _, .inr rfl, hw, rfl⟩
  | none => exact nomatch (storesToMemory_eq_false hs hm).symm.trans hi

/-- No storing instruction has an indirect operand, so resolving it shows in no byte. -/
theorem peek_effAddr_of_storesToMemory {i : Instr} (hi : storesToMemory i = true) {m : Mem} {s t : State} {ea : Word}
    (ho : operandOf i = .memory m) (he : effAddr m s = .ok (ea, t)) (a : Word) : t.peek a = s.peek a := by
  obtain rfl | ⟨b, rfl⟩ | ⟨w, rfl, -⟩ := effAddr_eq_ok he
  · rfl
  · rfl
  · cases i <;> cases ho
    cases hi

/-- A read changes what the status port shows and nothing else. -/
theorem peek_readEffect {a ea : Word} (h : a ≠ ea) (s : State) : (readEffect ea s).peek a = s.peek a := by
  refine peek_congr (by simp) (by simp) (by simp) fun ha => ?_
  rw [readEffect_ppustatus, if_neg (ha ▸ h.symm)]

end Sys2Proof.Machine

namespace Sys2Proof

open Machine Stated

/-- Settles O34: a store is its bus write, also where that is refused. -/
theorem storeInstructions : Obligations.StoreInstructions := by
  intro i s t m ea v ho he hreg
  have stored : ∃ r, storedReg i.mnemonic = some r ∧ v = r s := by
    obtain ⟨hm, hv⟩ | ⟨hm, hv⟩ | ⟨hm, hv⟩ := hreg
    · exact ⟨State.a, hm ▸ rfl, hv⟩
    · exact ⟨State.x, hm ▸ rfl, hv⟩
    · exact ⟨State.y, hm ▸ rfl, hv⟩
  obtain ⟨r, hr, rfl⟩ := stored
  rw [exec_store hr ho, writeClass_of_effAddr he, ← write8_ok_iff]
  cases write8 ea (r s) t with
  | ok u => exact ⟨fun _ => ⟨u, rfl, rfl⟩, fun h => absurd ⟨u, rfl⟩ h⟩
  | error e => exact ⟨nofun, fun _ => ⟨e, rfl⟩⟩

/-- Settles O58: the bus write reaches its own address, and a port only through that port's address. -/
theorem storeFrame : Obligations.StoreFrame := by
  intro i s t u m ea hi ho he h
  obtain ⟨v, t', w, p, ht', hw, rfl⟩ := exec_store_at hi ho he h
  have shown a (ha : a ≠ ea) : t'.peek a = s.peek a := by
    rw [← peek_effAddr_of_storesToMemory hi ho he a]
    obtain rfl | rfl := ht'
    · rfl
    · exact peek_readEffect ha t
  have ports : t'.ports = s.ports := by
    rw [← ports_effAddr he]
    obtain rfl | rfl := ht'
    · rfl
    · exact ports_readEffect ea t
  have driven : PortDriven s w := (portDriven_write8 hw).congr_left ports
  obtain ⟨-, -, -, -, -, -, -, lastWr, -⟩ := write8_registers hw
  obtain ⟨-, unwritten⟩ := busReadAfterWrite ea v t' w hw
  refine ⟨lastWr, fun a ha => (unwritten a ha).trans (shown a ha), fun hea => ?_, fun hea => ?_⟩
  · by_contra changed
    exact hea (lastWr ▸ driven.oam changed)
  · by_contra changed
    rw [not_and_or, not_and_or, not_and_or] at changed
    exact hea (lastWr ▸ driven.pictureMemory changed)

end Sys2Proof
end

section
/-! Register transfers (`41_load_store_transfer.md` R186 to R191). -/

namespace Sys2Proof

open Machine Stated

/-- Settles O35: each opcode is the transfer's encoding; every transfer but TXS applies `SetZN` to the byte it copies. -/
theorem transferInstructions : Obligations.TransferInstructions := by
  refine ⟨⟨decode_encode .tax [], decode_encode .tay [], decode_encode .txa [], decode_encode .tya [],
    decode_encode .tsx [], decode_encode .txs []⟩, fun s => ?_⟩
  have flags (v : Byte) : FlagsZN s.p (setZN v s.p) v none none := flagsZN_setZN v s.p
  have tax_tay : exec .tax s = .next (loadX s.a s) ∧ exec .tay s = .next (loadY s.a s) := ⟨rfl, rfl⟩
  have txa : exec .txa s = .next (loadA s.x s) := rfl
  have tya : exec .tya s = .next (loadA s.y s) := rfl
  have tsx : exec .tsx s = .next (loadX s.sp s) := rfl
  have txs : exec .txs s = .next (s.setSp s.x) := rfl
  exact ⟨⟨_, flags s.a, tax_tay⟩, ⟨_, flags s.x, txa⟩, ⟨_, flags s.y, tya⟩, ⟨_, flags s.sp, tsx⟩, txs⟩

end Sys2Proof
end

section
/-! Overflow, subtraction and comparison (`42_arithmetic_logic.md` R200, R201, R206 to R211). -/

namespace Sys2Proof.Machine

open Stated

/-- The test by which ADC and SBC form V (R200, R201) looks at bit 7. -/
theorem and_signBit_ne_zero (b : Byte) : (b &&& 0x80#8 != 0x00#8) = b.getLsbD 7 := by
  have masked : b &&& 0x80#8 = if b.getLsbD 7 then 0x80#8 else 0x00#8 := BitVec.and_twoPow b 7
  rw [masked]
  cases b.getLsbD 7 <;> rfl

/-- A byte as two's complement: from 128 on it stands 256 lower. -/
theorem toInt_byte (b : Byte) : b.toInt = if 128 ≤ b.toNat then (b.toNat : Int) - 256 else b.toNat := by
  rw [BitVec.toInt_eq_msb_cond, BitVec.msb_eq_decide]
  simp

theorem toNat_complement (m : Byte) : (m ^^^ 0xFF#8).toNat = 255 - m.toNat := by
  rw [← BitVec.toNat_not (x := m), ← BitVec.xor_allOnes]
  rfl

theorem toInt_complement (m : Byte) : (m ^^^ 0xFF#8).toInt = -m.toInt - 1 := by
  have := m.isLt
  rw [toInt_byte, toInt_byte, toNat_complement]
  split_ifs <;> omega

/-- V of ADC: the operands agree in bit 7 and the result differs from them there (R200). -/
theorem adcOverflow_eq (a m r : Byte) :
    ((a ^^^ r) &&& (m ^^^ r) &&& 0x80#8 != 0x00#8) =
      ((a.getLsbD 7 ^^ r.getLsbD 7) && (m.getLsbD 7 ^^ r.getLsbD 7)) := by
  rw [and_signBit_ne_zero, BitVec.getLsbD_and, BitVec.getLsbD_xor, BitVec.getLsbD_xor]

theorem getV_adc (a m p : Byte) :
    getV (adc a m p).2 = true ↔
      a.toInt + m.toInt + (getC p).toNat < -128 ∨ 127 < a.toInt + m.toInt + (getC p).toNat := by
  have carry := Bool.toNat_le (getC p)
  have ha := a.isLt
  have hm := m.isLt
  rw [adc, getV_setZN, getV_setV, adcOverflow_eq, Bool.and_eq_true, Bool.xor_iff_ne, Bool.xor_iff_ne]
  simp only [getLsbD_seven, ne_eq, decide_eq_decide, BitVec.toNat_ofNat, toInt_byte]
  split_ifs <;> omega

/-- The overflow formulas of SBC and ADC agree when bit 7 of the operand is flipped. -/
theorem subOverflow_eq_addOverflow_not (a m r : Bool) : ((a ^^ m) && (a ^^ r)) = ((a ^^ r) && (!m ^^ r)) := by
  revert a m r
  decide

/-- The difference less the borrow is the sum with the complement and the carry, less 256 (R201, derived there). -/
theorem sbc_eq_adc_complement (a m p : Byte) : sbc a m p = adc a (m ^^^ 0xFF#8) p := by
  have hm := m.isLt
  have result : (sbc a m p).1 = (adc a (m ^^^ 0xFF#8) p).1 := by
    apply BitVec.eq_of_toNat_eq
    have := toNat_sbc a m p
    simp only [adc, BitVec.toNat_ofNat, toNat_complement]
    omega
  have carry : (0 ≤ (a.toNat : Int) - m.toNat - (1 - (getC p).toNat)) ↔
      0xFF < a.toNat + (m ^^^ 0xFF#8).toNat + (getC p).toNat := by
    rw [toNat_complement]
    omega
  have overflow (r : Byte) : ((a ^^^ m) &&& (a ^^^ r) &&& 0x80#8 != 0x00#8) =
      ((a ^^^ r) &&& (m ^^^ 0xFF#8 ^^^ r) &&& 0x80#8 != 0x00#8) := by
    have flipped : (m ^^^ 0xFF#8).getLsbD 7 = !m.getLsbD 7 := by
      rw [BitVec.getLsbD_xor]
      exact Bool.xor_true _
    rw [adcOverflow_eq, flipped, and_signBit_ne_zero, BitVec.getLsbD_and, BitVec.getLsbD_xor, BitVec.getLsbD_xor]
    exact subOverflow_eq_addOverflow_not _ _ _
  simp only [sbc, adc] at result ⊢
  rw [result, overflow, decide_eq_decide.2 carry]

theorem getV_sbc (a m p : Byte) :
    getV (sbc a m p).2 = true ↔
      a.toInt - m.toInt - (1 - (getC p).toNat) < -128 ∨ 127 < a.toInt - m.toInt - (1 - (getC p).toNat) := by
  rw [sbc_eq_adc_complement, getV_adc, toInt_complement]
  omega

theorem flags_compareFlags (reg m p : Byte) :
    Flags p (compareFlags reg m p) (some ((reg - m).getLsbD 7)) none (some (reg == m))
      (some (decide (m.toNat ≤ reg.toNat))) := by
  have equal : (reg - m == 0x00#8) = (reg == m) := by
    rw [Bool.eq_iff_iff, beq_iff_eq, beq_iff_eq]
    exact sub_eq_zero
  exact equal ▸ flagsZN_setZN_setC (reg - m) p _

end Sys2Proof.Machine

namespace Sys2Proof

open Machine Stated

/-- Settles O38: V of SBC is V of ADC with the complement, which is `-M - 1`. -/
theorem overflowIsSignedOverflow : Obligations.OverflowIsSignedOverflow :=
  fun s m => ⟨⟨addOp m s, rfl, getV_adc s.a m s.p⟩, ⟨subOp m s, rfl, getV_sbc s.a m s.p⟩⟩

/-- Settles O39. -/
theorem subtractIsAddOfComplement : Obligations.SubtractIsAddOfComplement := by
  intro s m
  have same : subOp m s = addOp (m ^^^ 0xFF#8) s := congrArg (setAP · s) (sbc_eq_adc_complement s.a m s.p)
  exact congrArg Host.Outcome.next same

/-- What `CompareInstructions` says of one instruction, its operand byte and the state its access left (R206 to R208). -/
theorem compare_of_readsOperand {i : Instr} {s base : State} {m : Byte} (h : ReadsOperand i s base m) (reg : Byte)
    (hreg : i.mnemonic = .CMP ∧ reg = s.a ∨ i.mnemonic = .CPX ∧ reg = s.x ∨ i.mnemonic = .CPY ∧ reg = s.y) :
    ∃ q, Flags s.p q (some ((reg - m).getLsbD 7)) none (some (reg == m)) (some (decide (m.toNat ≤ reg.toNat))) ∧
      exec i s = .next { base with p := q } := by
  refine ⟨compareFlags reg m s.p, flags_compareFlags reg m s.p, ?_⟩
  rw [← h.p]
  obtain ⟨hm, rfl⟩ | ⟨hm, rfl⟩ | ⟨hm, rfl⟩ := hreg
  · exact h.a ▸ h.exec cmpOp (hm ▸ rfl)
  · exact h.x ▸ h.exec cpxOp (hm ▸ rfl)
  · exact h.y ▸ h.exec cpyOp (hm ▸ rfl)

/-- Settles O42. -/
theorem compareInstructions : Obligations.CompareInstructions := by
  refine ⟨fun i s v ho => compare_of_readsOperand (readsOperand_immediate ho s), fun i s t m ea ho he hole => ?_⟩
  obtain ⟨v, hv, reads⟩ := readsOperand_memory ho he hole
  exact ⟨v, hv, compare_of_readsOperand reads⟩

end Sys2Proof
end

section
/-! Register increments and decrements (`43_incdec_shift.md` R222 to R225). -/

namespace Sys2Proof

open Machine Stated

/-- Settles O43: each opcode is the instruction's encoding; the operation puts the result of `inc` or `dec` into `X` or
`Y` and what `SetZN` makes of it into `P`. -/
theorem registerIncrementInstructions : Obligations.RegisterIncrementInstructions := by
  refine ⟨⟨decode_encode .inx [], decode_encode .iny [], decode_encode .dex [], decode_encode .dey []⟩, fun s => ?_⟩
  have flags (r : Byte) : FlagsZN s.p (setZN r s.p) r none none := flagsZN_setZN r s.p
  have inx : exec .inx s = .next (setXP (inc s.x s.p) s) := rfl
  have iny : exec .iny s = .next (setYP (inc s.y s.p) s) := rfl
  have dex : exec .dex s = .next (setXP (dec s.x s.p) s) := rfl
  have dey : exec .dey s = .next (setYP (dec s.y s.p) s) := rfl
  exact ⟨⟨_, flags (s.x + 1#8), inx⟩, ⟨_, flags (s.y + 1#8), iny⟩, ⟨_, flags (s.x - 1#8), dex⟩,
    ⟨_, flags (s.y - 1#8), dey⟩⟩

end Sys2Proof
end

section
/-! The call and the return (`44_control_flow.md` R241, R242). -/

namespace Sys2Proof.Machine

/-- The two cells a call pushes to are distinct (R32). -/
theorem callCells_ne (sp : Byte) : 0x0100 + sp.toNat ≠ 0x0100 + (sp - 1#8).toNat := by
  rw [← stackCell_zero]
  exact (stackCell_succ_ne_zero sp (by decide)).symm

end Sys2Proof.Machine

namespace Sys2Proof

open Machine

/-- Settles O47. -/
theorem jsrPushesReturnAddress : Obligations.JsrPushesReturnAddress := by
  intro w s
  have two : s.sp - 1#8 - 1#8 = s.sp - 2#8 := BitVec.sub_sub _ _ _
  have call : exec (.jsr w) s = callSub w s := rfl
  rw [call, callSub_eq, two]
  rfl

/-- Settles O48. -/
theorem rtsPullsReturnAddress : Obligations.RtsPullsReturnAddress := by
  intro s
  have two : s.sp + 1#8 + 1#8 = s.sp + 2#8 := BitVec.add_assoc _ _ _
  have ret : exec .rts s = returnSub s := rfl
  rw [ret, returnSub_eq, two]
  rfl

/-- Settles O49: the two pulls read the two distinct cells the call pushed to, and the pulled word is `PC - 1`. -/
theorem returnFollowsCall : Obligations.ReturnFollowsCall := by
  intro w s
  have top : s.sp - 2#8 + 2#8 = s.sp := BitVec.sub_add_cancel _ _
  have below : s.sp - 2#8 + 1#8 = s.sp - 1#8 := by bv_omega
  refine ⟨_, _, jsrPushesReturnAddress w s, rtsPullsReturnAddress _, ?resumes, ?kept, fun k hhi hlo => ?cells⟩
  case resumes | kept =>
    simp only [top, below, Memory.read_write_same, Memory.read_write_other _ _ (callCells_ne s.sp), mkWord_hi_lo,
      BitVec.sub_add_cancel]
  case cells => rw [Memory.read_write_other _ _ hlo, Memory.read_write_other _ _ hhi]

end Sys2Proof
end

section
/-! The stack and flag instructions (`45_stack_flags_system.md` R260 to R271). -/

namespace Sys2Proof

open Machine Stated

/-- Settles O52: PHA and PHP are one push; PLA and PLP hand the pulled byte to `loadA` and to `mergeStatus`. -/
theorem stackInstructions : Obligations.StackInstructions := by
  intro s v pushed pulled
  have push_next (b : Byte) : pushByte b s = .next (pushed b) := congrArg finish (push_eq b s)
  have pull_next (f : Byte → State → State) : pullByte f s = .next (f v pulled) := pullByte_eq f s
  have pla : exec .pla s = .next (loadA v pulled) := pull_next loadA
  have plp : exec .plp s = .next (pulled.setP (mergeStatus s.p v)) := pull_next fun v t => t.setP (mergeStatus t.p v)
  exact ⟨push_next s.a, push_next (s.p ||| 0x30#8), ⟨_, flagsZN_setZN v s.p, pla⟩, plp⟩

/-- Settles O53: each opcode is the instruction's encoding; writing a flag is its mask or the mask's complement. -/
theorem flagInstructions : Obligations.FlagInstructions := by
  refine ⟨⟨decode_encode .clc [], decode_encode .sec [], decode_encode .cli [], decode_encode .sei [],
    decode_encode .cld [], decode_encode .sed [], decode_encode .clv [], decode_encode .nop []⟩, fun s => ?_⟩
  exact ⟨rfl, rfl, rfl, rfl, rfl, rfl, rfl, rfl⟩

end Sys2Proof
end

section
/-! Entering a handler and returning from it (`45_stack_flags_system.md` R272, R273; `60_exceptions.md` R311). -/

namespace Sys2Proof.Machine

open Stated

theorem sub_sub_sub_one (b : Byte) : b - 1#8 - 1#8 - 1#8 = b - 3#8 := by
  rw [BitVec.sub_sub, BitVec.sub_sub]; rfl

theorem pushed3_eq_threePushes (ram : Memory) (sp b1 b2 b3 : Byte) :
    pushed3 ram sp b1 b2 b3 = threePushes ram sp b1 b2 b3 := by
  rw [pushed3, threePushes, BitVec.sub_sub]; rfl

/-- The three pushes of a handler entry leave each byte in its own cell (R32). -/
theorem read_threePushes (ram : Memory) (sp b1 b2 b3 : Byte) :
    (threePushes ram sp b1 b2 b3).read (stackCell sp 0) = b1 ∧
    (threePushes ram sp b1 b2 b3).read (stackCell sp 1) = b2 ∧
    (threePushes ram sp b1 b2 b3).read (stackCell sp 2) = b3 := by
  have ne01 : stackCell sp 0 ≠ stackCell sp 1 := (stackCell_succ_ne_zero sp (by decide)).symm
  have ne02 : stackCell sp 0 ≠ stackCell sp 2 := (stackCell_succ_ne_zero sp (by decide)).symm
  have ne12 : stackCell sp 1 ≠ stackCell sp 2 := by
    simpa only [stackCell_sub_one] using (stackCell_succ_ne_zero (sp - 1#8) (k := 0) (by decide)).symm
  have cells : threePushes ram sp b1 b2 b3 =
      ((ram.write (stackCell sp 0) b1).write (stackCell sp 1) b2).write (stackCell sp 2) b3 := by
    rw [stackCell_zero]; rfl
  rw [cells, Memory.read_write_other _ _ ne02, Memory.read_write_other _ _ ne01, Memory.read_write_other _ _ ne12]
  simp only [Memory.read_write_same, and_self]

/-- The mask of the break and unused bits, bit by bit (R28). -/
theorem getLsbD_breakUnused : ∀ j, j < 8 → (0x30#8).getLsbD j = decide (j = 4 ∨ j = 5) := by decide

/-- PLP and RTI take every bit of the pulled byte but the break and unused bits (R263, R273). -/
theorem getLsbD_mergeStatus (p v : Byte) {j : Nat} (hj : j < 8) :
    (mergeStatus p v).getLsbD j = if j = 4 ∨ j = 5 then p.getLsbD j else v.getLsbD j := by
  have masks : mergeStatus p v = p &&& 0x30#8 ||| v &&& ~~~0x30#8 := rfl
  rw [masks, BitVec.getLsbD_or, BitVec.getLsbD_and, BitVec.getLsbD_and, BitVec.getLsbD_not, getLsbD_breakUnused j hj]
  split <;> simp [*]

theorem mergeStatus_self (p : Byte) : mergeStatus p p = p := by
  apply BitVec.eq_of_getLsbD_eq
  intro j hj
  rw [getLsbD_mergeStatus p p hj, ite_self]

/-- BRK pushes `P` with the break and unused bits set and then sets I in `P`; each change is to bits the merge takes
from the other byte (R272, R311). -/
theorem mergeStatus_setI_of_brk (p : Byte) : mergeStatus (setI true p) (p ||| 0x30#8) = p := by
  apply BitVec.eq_of_getLsbD_eq
  intro j hj
  rw [getLsbD_mergeStatus _ _ hj]
  split
  case isTrue kept =>
    rw [setI, getLsbD_setFlag 2 j true p hj, if_neg (by omega)]
  case isFalse pulled =>
    rw [BitVec.getLsbD_or, getLsbD_breakUnused j hj, decide_eq_false pulled, Bool.or_false]

end Sys2Proof.Machine

namespace Sys2Proof

open Machine Stated

/-- Settles O54. -/
theorem brkEntersHandler : Obligations.BrkEntersHandler := by
  intro s
  have brk : exec .brk s = finish
    (enterHandler (s.pc + 1#16) (s.p ||| 0x30#8) (setI true s.p) Config.vecBrk s) := rfl
  rw [brk, enterHandler_eq _ _ _ (by decide) (by decide), pushed3_eq_threePushes, sub_sub_sub_one,
    BitVec.sub_sub]
  rfl

/-- Settles O55. -/
theorem rtiReturnsFromHandler : Obligations.RtiReturnsFromHandler := by
  refine ⟨decode_encode .rti [], fun s => ?_⟩
  have two : s.sp + 1#8 + 1#8 = s.sp + 2#8 := BitVec.add_assoc _ _ _
  have three : s.sp + 2#8 + 1#8 = s.sp + 3#8 := BitVec.add_assoc _ _ _
  have rti : exec .rti s = finish (returnFromHandler s) := rfl
  rw [rti, returnFromHandler_eq, two, three]
  rfl

/-- RTI on a stack as a handler entry leaves it gives back the return address and `S`, merges the saved status and keeps
the rest (R311). -/
theorem exec_rti_of_threePushes {ram : Memory} {sp status : Byte} {ret : Word} {t : State}
    (hram : t.ram = threePushes ram sp (hiByte ret) (loByte ret) status) (hsp : t.sp = sp - 3#8) :
    exec .rti t =
      .next { t with pc := ret, p := mergeStatus t.p status, sp := sp, lastRd := stackAddr sp } := by
  obtain ⟨hi, lo, st⟩ := read_threePushes ram sp (hiByte ret) (loByte ret) status
  have top : t.sp + 3#8 = sp := by rw [hsp, BitVec.sub_add_cancel]
  have cell0 : 0x0100 + sp.toNat = stackCell sp 0 := (stackCell_zero sp).symm
  have cell1 : 0x0100 + (t.sp + 2#8).toNat = stackCell sp 1 := by rw [hsp, stackCell]; bv_omega
  have cell2 : 0x0100 + (t.sp + 1#8).toNat = stackCell sp 2 := by rw [hsp, stackCell]; bv_omega
  rw [rtiReturnsFromHandler.2 t, top, cell0, cell1, cell2, hram, hi, lo, st, mkWord_hi_lo]
  rfl

/-- Settles O56: each entry leaves the three pushed bytes on the stack, and RTI merges the saved status into `P`. -/
theorem rtiUndoesHandlerEntry : Obligations.RtiUndoesHandlerEntry := by
  refine fun s => ⟨?nmi, ?brk⟩
  case nmi =>
    have rti := exec_rti_of_threePushes (t := afterNmi s) rfl rfl
    exact ⟨_, rti, rfl, mergeStatus_self s.p, rfl, rfl, rfl, rfl⟩
  case brk =>
    exact ⟨_, _, brkEntersHandler s, exec_rti_of_threePushes rfl rfl, rfl, mergeStatus_setI_of_brk s.p, rfl, rfl, rfl,
      rfl⟩

end Sys2Proof
end

section
/-! The two ways a step leaves the ordinary path (`60_exceptions.md` R300, R301, R306, R307): an unrecognised byte and the
NMI entry. -/

namespace Sys2Proof.Machine

open Stated

/-- A snapshot shows what a bus read gives. -/
theorem busValue_of_peek {a : Word} {s : State} {b : Byte} (h : s.peek a = some b) : busValue a s = .ok b := by
  unfold State.peek at h
  split at h
  next v hv => rw [hv, Option.some.inj h]
  next => cases h

/-- The fetch of a byte a snapshot shows, at the status port too (R70, R86, R160). -/
theorem fetch8_eq_readEffect {s : State} {b : Byte} (h : s.peek s.pc = some b) :
    fetch8 s = .ok (b, (readEffect s.pc s).setPc (s.pc + 1#16)) := by
  simp only [fetch8, read8_of_value (busValue_of_peek h), ok_bind, readEffect_pc]

/-- A fetched byte with no row ends the fetch (R135, R300). -/
theorem fetchInstr_of_lookup_none {s t : State} {b : Byte} (hb : fetch8 s = .ok (b, t)) (hl : lookup b = none) :
    fetchInstr s = .illegal b t := by
  simp only [fetchInstr, hb, hl]

/-- The operand bytes are any bytes: their fetch completes or is refused (R133). -/
theorem fetchOperand_ne_illegal (shape : Shape) (s : State) (b : Byte) (t : State) :
    fetchOperand shape s ≠ .illegal b t := by
  cases shape with
  | one i => exact nofun
  | two f => simp only [fetchOperand]; split <;> exact nofun
  | three f => simp only [fetchOperand]; split <;> exact nofun

/-- Only the opcode byte can be unrecognised, and only for want of a row (R135). -/
theorem fetchInstr_illegal {s t : State} {b : Byte} (h : fetchInstr s = .illegal b t) :
    fetch8 s = .ok (b, t) ∧ lookup b = none := by
  unfold fetchInstr at h
  split at h
  next => cases h
  next c u hu =>
    split at h
    next hl => cases h; exact ⟨hu, hl⟩
    next => exact absurd h (fetchOperand_ne_illegal _ _ _ _)

/-- A fault comes from the fetch: no instruction raises one (R300, R301). -/
theorem fetchAndExec_fault {s : State} {f : Fault} (h : fetchAndExec s = .fault f) :
    ∃ b t, f = .illegalOpcode b t ∧ fetchInstr s = .illegal b t := by
  unfold fetchAndExec at h
  split at h
  next i u _ => exact absurd h (exec_ne_fault i u f)
  next b t hf => cases h; exact ⟨b, t, rfl, hf⟩
  next => cases h

/-- A taken NMI gives one state (R306, R307). -/
theorem nmiPrelude_of_nmiTaken {s : State} (h : nmiTaken s = true) : nmiPrelude s = .ok (afterNmi s) := by
  rw [nmiPrelude, if_pos h, nmiEntry, enterHandler_eq _ _ _ (by decide) (by decide), pushed3_eq_threePushes,
    sub_sub_sub_one, BitVec.sub_sub]
  rfl

/-- The entry has cleared its request, so the test that follows it takes none (R306). -/
theorem nmiPrelude_afterNmi (s : State) : nmiPrelude (afterNmi s) = .ok (afterNmi s) := rfl

end Sys2Proof.Machine

namespace Sys2Proof

open Machine Stated

/-- Settles O23: after the NMI test the step is the fetch of that byte, which has no row. -/
theorem unrecognisedByteFaults : Obligations.UnrecognisedByteFaults := by
  intro s t b ht hpeek hl
  rw [step_eq_fetchAndExec ht, fetchAndExec, fetchInstr_of_lookup_none (fetch8_eq_readEffect hpeek) hl,
    readEffect_eq]
  rfl

/-- Settles O24: the fault is that of the opcode's fetch, which reads at `PC` and then advances it. -/
theorem onlyUnrecognisedBytesFault : Obligations.OnlyUnrecognisedBytesFault := by
  refine ⟨exec_ne_fault, fun s f h => ?_⟩
  obtain ⟨u, hu⟩ := nmiPrelude_ok s
  rw [step_eq_fetchAndExec hu] at h
  obtain ⟨b, t, rfl, hf⟩ := fetchAndExec_fault h
  obtain ⟨hb, hl⟩ := fetchInstr_illegal hf
  refine ⟨b, t, rfl, hl, ?_⟩
  simp [fetch8_eq_ok hb]

/-- Settles O26: with the request cleared, the same step goes on as an ordinary step does. -/
theorem nmiIsTakenFirst : Obligations.NmiIsTakenFirst := by
  intro s pending enabled
  have taken : nmiTaken s = true := by rw [nmiTaken, pending, enabled, Bool.and_self]
  refine ⟨nmiPrelude_of_nmiTaken taken, ?_⟩
  rw [step_eq_fetchAndExec (nmiPrelude_of_nmiTaken taken), step_eq_fetchAndExec (nmiPrelude_afterNmi s)]

end Sys2Proof
end

section
/-! Construction and the ROM load (`70_reset_and_hazards.md` R340 to R345). -/

namespace Sys2Proof.Machine

theorem Memory.inForm_nil (n : Nat) : Memory.wf [] ∧ Memory.within n [] := ⟨Memory.wf_nil, Memory.within_nil n⟩

theorem inv_reset : State.reset.Inv where
  ram := Memory.inForm_nil _
  prgLo := Memory.inForm_nil _
  prgHi := Memory.inForm_nil _
  oam := Memory.inForm_nil _
  pt0 := Memory.inForm_nil _
  pt1 := Memory.inForm_nil _
  nt := Memory.inForm_nil _
  pal := Memory.inForm_nil _

/-- A word read in the upper PRG bank gives that bank's two bytes and sets `LAST_RD` only (R72, R82). -/
theorem read16_prgHi {a : Word} (h : 0xC000 ≤ a.toNat) (h' : 0xC000 ≤ (a + 1#16).toNat) (s : State) :
    read16 a s = .ok (mkWord (s.prgHi.read ((a + 1#16).toNat - 0xC000)) (s.prgHi.read (a.toNat - 0xC000)),
      s.setLastRd (a + 1#16)) := by
  simp only [read16, read8_prgHi h, read8_prgHi h', ok_bind, State.setLastRd_prgHi]
  rfl

theorem Memory.read_ofBytes_romBlock {img : List Byte} {start n k : Nat} (h : start + n ≤ img.length) (hk : k < n) :
    (Memory.ofBytes 0 (romBlock img start n)).read k = img[start + k] := by
  have inBlock : k < (romBlock img start n).length := by
    rw [romBlock, List.length_take, List.length_drop]
    omega
  have laidOut := Memory.read_ofBytes (romBlock img start n) 0 k inBlock
  rw [Nat.zero_add] at laidOut
  rw [laidOut]
  simp only [romBlock, List.getElem_take, List.getElem_drop]

/-- The ROM load of an image that is long enough: the arrays, then the reset vector's two reads (R342, R343). -/
theorem hostLoadRom_eq {img : List Byte} (h : 0x6010 ≤ img.length) (s : State) :
    hostLoadRom img s =
      .ok (((loadRomArrays img s).setLastRd 0xFFFD#16).setPc (mkWord img[16 + 0x3FFD] img[16 + 0x3FFC])) := by
  have vectorByte {k : Nat} (hk : k < 0x4000) : (loadRomArrays img s).prgHi.read k = img[16 + k] :=
    Memory.read_ofBytes_romBlock (start := 16) (n := 0x4000) (by omega) hk
  rw [hostLoadRom, romImageWellFormed, if_pos (decide_eq_true h), read16_prgHi (by decide) (by decide), ok_bind,
    ← vectorByte (k := 0x3FFD) (by decide), ← vectorByte (k := 0x3FFC) (by decide)]
  rfl

theorem hostLoadRom_tooShort {img : List Byte} (h : img.length < 0x6010) (s : State) :
    hostLoadRom img s = .error .romImageTooShort := by
  rw [hostLoadRom, romImageWellFormed, decide_eq_false h.not_ge]
  rfl

end Sys2Proof.Machine

namespace Sys2Proof

open Machine

/-- Settles O60: the four arrays are blocks of the image, and the reset vector is read from the bank just loaded. -/
theorem romLoad : Obligations.RomLoad := by
  intro img s
  refine ⟨fun long => ⟨_, congrArg finish (hostLoadRom_eq long s), fun k hk => ?_, fun k hk => ?_, rfl, rfl⟩,
    fun short => congrArg finish (hostLoadRom_tooShort short s)⟩
  · have prg := Memory.read_ofBytes_romBlock (img := img) (start := 16) (n := 0x4000) (by omega) hk
    exact ⟨prg, prg⟩
  · exact ⟨Memory.read_ofBytes_romBlock (by omega) hk, Memory.read_ofBytes_romBlock (by omega) hk⟩

/-- Settles O2: construction has the values of R340, and a memory that lists nothing is in form. -/
theorem resetIsLaunchState : Obligations.ResetIsLaunchState :=
  ⟨⟨rfl, rfl, rfl, rfl, rfl, rfl, rfl, inv_reset⟩, inv_reset⟩

end Sys2Proof
end
